-- ==== Sys2Proof/Word.lean ====
section
/-! DEFINITION. The bit-vector types of NSCE: bytes, nibbles and the 16-bit command word. -/

namespace Sys2Proof

/-- One byte of IN or OUT, and the width of KEY (20_memory R50, 10_state R21). -/
abbrev Byte := BitVec 8

/-- 4 bits, half of one byte (00_scope R13). -/
abbrev Nibble := BitVec 4

/-- One command word, OP in bits [15:8] and ARG in bits [7:0] (30_encoding R71). -/
abbrev CommandWord := BitVec 16

end Sys2Proof
end

