-- ==== Sys2Proof/Syntax.lean ====
section
/-! DEFINITION. The commands of NSCE: one constructor per row of spec/opcode_table.json
(30_encoding R72), its operands as R74 assembles them. -/

namespace Sys2Proof

/-- The operand M of STSEL: 0 total, 1 daily (44_statistics R171). -/
inductive StatsKind where
  | total
  | daily
  deriving DecidableEq, Repr

/-- The operand L of BARISTA: 0 unlock, 1 lock (46_framing_and_control R195). -/
inductive LockAction where
  | unlock
  | lock
  deriving DecidableEq, Repr

/-- One command. -/
inductive Instr where
  /-- R190: do nothing. -/
  | nop
  /-- R191: set the session key to `imm8`. -/
  | setkey (imm8 : Byte)
  /-- R192: derive the key from an identity buffer. -/
  | keyid
  /-- R193: copy OUT into IN. -/
  | mov
  /-- R101: pass IN to OUT, through the transform when `c`. -/
  | xform (c : Bool)
  /-- R194: build a write payload; `p` puts the key first, `a` puts it last, `c` applies the transform. -/
  | frame (c p a : Bool)
  /-- R124: decode a device identity. -/
  | decid
  /-- R141: decode a status bitmap. -/
  | decst
  /-- R153: decode a brew progress. -/
  | decpr
  /-- R170: decode statistics counters. -/
  | decstat
  /-- R172: check the statistics read-back for the sentinel. -/
  | stchk
  /-- R180: encode a brew command. -/
  | encpr
  /-- R171: write the statistics selector. -/
  | stsel (m : StatsKind)
  /-- R195: write the lock or unlock byte. -/
  | barista (l : LockAction)
  /-- R196: write the keepalive payload. -/
  | keepalive
  deriving DecidableEq, Repr

end Sys2Proof
end

