-- ==== Sys2Proof/WellFormed.lean ====
section
/-! DEFINITION. Which terms of `Instr` are commands: all but FRAME with P = A = 1, which 30_encoding
R76 makes illegal.  Every other operand is legal at every value of its type (R74, R79). -/

namespace Sys2Proof

/-- The instruction has an encoding: the key is put first or last, never both (30_encoding R76). -/
def WellFormed (i : Instr) : Bool :=
  match i with
  | .nop => true
  | .setkey _ => true
  | .keyid => true
  | .mov => true
  | .xform _ => true
  | .frame _ p a => !(p && a)
  | .decid => true
  | .decst => true
  | .decpr => true
  | .decstat => true
  | .stchk => true
  | .encpr => true
  | .stsel _ => true
  | .barista _ => true
  | .keepalive => true

end Sys2Proof
end

