-- ==== Sys2Proof/Decode.lean ====
section
/-! DEFINITION. The decoder of 30_encoding R79, total on every 16-bit word and rejecting by name, and
after it the encoder and the opcode table, written from R72 and R74. -/

namespace Sys2Proof

/-- Why a word is no command (30_encoding R75, R76).  Each such word ends with ERR = ILLEGAL. -/
inductive DecodeReject where
  /-- OP is not in R72's table. -/
  | unassignedOpcode (op : Byte)
  /-- An ARG bit that must be 0 is set (R75). -/
  | reservedArg (op arg : Byte)
  /-- FRAME with P = A = 1 (R76). -/
  | keyFirstAndLast
  deriving DecidableEq, Repr

/-- OP, bits [15:8] (R71). -/
def opOf (w : CommandWord) : Byte := w.extractLsb' 8 8

/-- ARG, bits [7:0] (R71). -/
def argOf (w : CommandWord) : Byte := w.extractLsb' 0 8

/-- A command without operand: ARG must be 0x00 (R74). -/
def decodePlain (i : Instr) (op arg : Byte) : Except DecodeReject Instr :=
  if arg = 0x00#8 then .ok i else .error (.reservedArg op arg)

/-- A command with one flag in ARG[0]; ARG[7:1] must be 0 (R74). -/
def decodeFlag (mk : Bool → Instr) (op arg : Byte) : Except DecodeReject Instr :=
  if arg.extractLsb' 1 7 = 0#7 then .ok (mk (arg.getLsbD 0)) else .error (.reservedArg op arg)

/-- FRAME: C, P, A in ARG[0], ARG[1], ARG[2]; ARG[7:3] must be 0, and P = A = 1 is illegal (R74, R76). -/
def decodeFrame (op arg : Byte) : Except DecodeReject Instr :=
  if arg.extractLsb' 3 5 = 0#5 then
    if arg.getLsbD 2 && arg.getLsbD 1 then .error .keyFirstAndLast
    else .ok (.frame (arg.getLsbD 0) (arg.getLsbD 1) (arg.getLsbD 2))
  else .error (.reservedArg op arg)

/-- M of STSEL (R171). -/
def statsKindOf (m : Bool) : StatsKind := if m then .daily else .total

/-- L of BARISTA (R195). -/
def lockActionOf (l : Bool) : LockAction := if l then .lock else .unlock

/-- The decode procedure of R79. -/
def decode (w : CommandWord) : Except DecodeReject Instr :=
  let op := opOf w
  let arg := argOf w
  match op.toNat with
  | 0x00 => decodePlain .nop op arg
  | 0x01 => .ok (.setkey arg)
  | 0x02 => decodePlain .keyid op arg
  | 0x03 => decodePlain .mov op arg
  | 0x10 => decodeFlag .xform op arg
  | 0x11 => decodeFrame op arg
  | 0x20 => decodePlain .decid op arg
  | 0x21 => decodePlain .decst op arg
  | 0x22 => decodePlain .decpr op arg
  | 0x23 => decodePlain .decstat op arg
  | 0x24 => decodePlain .stchk op arg
  | 0x30 => decodePlain .encpr op arg
  | 0x31 => decodeFlag (fun m => .stsel (statsKindOf m)) op arg
  | 0x32 => decodeFlag (fun l => .barista (lockActionOf l)) op arg
  | 0x33 => decodePlain .keepalive op arg
  | _ => .error (.unassignedOpcode op)

/-- The word an instruction of `nbits` bits with the bits `w` is read from: every bit above `nbits`
is 0 (log 21). -/
def tableWord (nbits w : Nat) : CommandWord := (BitVec.ofNat nbits w).setWidth 16

/-- The instruction the decoder reads from bits `w` of the opcode table's numbering (log 21). -/
def decodeTableWord (nbits w : Nat) : Option Instr :=
  match decode (tableWord nbits w) with
  | .ok i => some i
  | .error _ => none

/-- The OP column of R72. -/
def opcode (i : Instr) : Byte :=
  match i with
  | .nop => 0x00#8
  | .setkey _ => 0x01#8
  | .keyid => 0x02#8
  | .mov => 0x03#8
  | .xform _ => 0x10#8
  | .frame _ _ _ => 0x11#8
  | .decid => 0x20#8
  | .decst => 0x21#8
  | .decpr => 0x22#8
  | .decstat => 0x23#8
  | .stchk => 0x24#8
  | .encpr => 0x30#8
  | .stsel _ => 0x31#8
  | .barista _ => 0x32#8
  | .keepalive => 0x33#8

/-- A flag in ARG[0], every other bit 0. -/
def flagArg (b : Bool) : Byte := (BitVec.ofBool b).setWidth 8

/-- The ARG column of R72. -/
def argument (i : Instr) : Byte :=
  match i with
  | .nop => 0x00#8
  | .setkey imm8 => imm8
  | .keyid => 0x00#8
  | .mov => 0x00#8
  | .xform c => flagArg c
  | .frame c p a => flagArg c ||| (flagArg p <<< 1) ||| (flagArg a <<< 2)
  | .decid => 0x00#8
  | .decst => 0x00#8
  | .decpr => 0x00#8
  | .decstat => 0x00#8
  | .stchk => 0x00#8
  | .encpr => 0x00#8
  | .stsel m => flagArg (decide (m = .daily))
  | .barista l => flagArg (decide (l = .lock))
  | .keepalive => 0x00#8

/-- The word of an instruction: OP in [15:8], ARG in [7:0] (R71). -/
def encode (i : Instr) : CommandWord :=
  ((opcode i).setWidth 16 <<< 8) ||| (argument i).setWidth 16

/-- One row of spec/opcode_table.json: a word w is the row's when `w & mask = bits`, unless excluded. -/
structure OpcodeRow where
  mnemonic : String
  bits     : CommandWord
  mask     : CommandWord
  excludes : List CommandWord
  deriving DecidableEq, Repr

/-- spec/opcode_table.json, row by row (the machine-readable copy of R72). -/
def opcodeTable : List OpcodeRow :=
  [ ⟨"NOP", 0x0000#16, 0xFFFF#16, []⟩,
    ⟨"SETKEY", 0x0100#16, 0xFF00#16, []⟩,
    ⟨"KEYID", 0x0200#16, 0xFFFF#16, []⟩,
    ⟨"MOV", 0x0300#16, 0xFFFF#16, []⟩,
    ⟨"XFORM", 0x1000#16, 0xFFFE#16, []⟩,
    ⟨"FRAME", 0x1100#16, 0xFFF8#16, [0x1106#16, 0x1107#16]⟩,
    ⟨"DECID", 0x2000#16, 0xFFFF#16, []⟩,
    ⟨"DECST", 0x2100#16, 0xFFFF#16, []⟩,
    ⟨"DECPR", 0x2200#16, 0xFFFF#16, []⟩,
    ⟨"DECSTAT", 0x2300#16, 0xFFFF#16, []⟩,
    ⟨"STCHK", 0x2400#16, 0xFFFF#16, []⟩,
    ⟨"ENCPR", 0x3000#16, 0xFFFF#16, []⟩,
    ⟨"STSEL", 0x3100#16, 0xFFFE#16, []⟩,
    ⟨"BARISTA", 0x3200#16, 0xFFFE#16, []⟩,
    ⟨"KEEPALIVE", 0x3300#16, 0xFFFF#16, []⟩ ]

/-- A word is a row's. -/
def OpcodeRow.covers (r : OpcodeRow) (w : CommandWord) : Bool :=
  w &&& r.mask == r.bits && !(r.excludes.contains w)

/-- The mnemonic of a command, as the table spells it. -/
def mnemonic (i : Instr) : String :=
  match i with
  | .nop => "NOP"
  | .setkey _ => "SETKEY"
  | .keyid => "KEYID"
  | .mov => "MOV"
  | .xform _ => "XFORM"
  | .frame _ _ _ => "FRAME"
  | .decid => "DECID"
  | .decst => "DECST"
  | .decpr => "DECPR"
  | .decstat => "DECSTAT"
  | .stchk => "STCHK"
  | .encpr => "ENCPR"
  | .stsel _ => "STSEL"
  | .barista _ => "BARISTA"
  | .keepalive => "KEEPALIVE"

end Sys2Proof
end

