-- ==== Sys2Proof/Config.lean ====
section
/-! DEFINITION. The implementation parameters of 00_scope R7 that configure the block.
The numbers a configuration is given by default, and the checks of R8, stand in Machine/Params.lean. -/

namespace Sys2Proof

/-- `ID_LAYOUT`: the first byte index of each identity field, and the start and byte width of each
optional field (41_identity R121, R123, R125). -/
structure IdLayout where
  key         : Nat
  fw1         : Nat
  fw2         : Nat
  article     : Nat
  machine     : Nat
  serial      : Nat
  date1       : Nat
  date2       : Nat
  statusBits  : Nat
  ver1Start   : Nat
  ver1Width   : Nat
  ver2Start   : Nat
  ver2Width   : Nat
  tabletStart : Nat
  tabletWidth : Nat
  deriving DecidableEq, Repr

/-- `PROG_LAYOUT`: the body offset of each of the twelve brew-progress arguments (43_brew_progress
R151).  Offsets 0 and 1 are fixed at PR_STATE and PR_PRODUCT (R157) and have no field here. -/
structure ProgLayout where
  strengthCur : Nat
  strengthMax : Nat
  waterCur    : Nat
  waterMax    : Nat
  milkTimeCur : Nat
  milkTimeMax : Nat
  foamCur     : Nat
  foamMax     : Nat
  tempMax     : Nat
  pauseMax    : Nat
  flagRaw     : Nat
  intake      : Nat
  deriving DecidableEq, Repr

/-- The parameters of 00_scope R7 that configure the block.  `CTR_BITS` is 8, exact, and is the
width of `State.ctr`.  DESIGN CHOICE, safe: the configuration is carried in the state so that every
statement holds for every configuration (log 1). -/
structure Config where
  /-- `T1`, the first permutation table (10_state R33). -/
  t1         : Vector Nibble 16
  /-- `T2`, the second permutation table (10_state R33). -/
  t2         : Vector Nibble 16
  /-- `BUF_BYTES`, the capacity in bytes of each of IN and OUT. -/
  bufBytes   : Nat
  /-- `ID_LAYOUT`. -/
  idLayout   : IdLayout
  /-- `PROG_LAYOUT`. -/
  progLayout : ProgLayout
  /-- `KNOWN_MASK`: bit j set iff the external table names bit index j (42_status_bitmap R144). -/
  knownMask  : BitVec 64
  /-- The first byte of `KA_PAYLOAD` (46_framing_and_control R196). -/
  kaFirst    : Byte
  /-- The second byte of `KA_PAYLOAD`. -/
  kaSecond   : Byte
  deriving DecidableEq, Repr

/-- `KNOWN_MASK` of the reset configuration: OPEN in R7 with no default, so no value is chosen
(DESIGN CHOICE, safe, log 3). -/
opaque Config.openKnownMask : BitVec 64

/-- First byte of `KA_PAYLOAD` of the reset configuration: OPEN in R7 (DESIGN CHOICE, safe, log 3). -/
opaque Config.openKaFirst : Byte

/-- Second byte of `KA_PAYLOAD` of the reset configuration: OPEN in R7 (DESIGN CHOICE, safe, log 3). -/
opaque Config.openKaSecond : Byte

end Sys2Proof
end

