-- ==== Sys2Proof/Machine/Params.lean ====
section
/-! DEFINITION. The parameters of 00_scope R7: lookups, lengths that follow from the layouts, the
checks of R8 and 43_brew_progress R157, and the values the reset configuration takes. -/

namespace Sys2Proof.Machine

/-- `T[x]`: an entry of a permutation table (10_state R33). -/
def tableAt (t : Vector Nibble 16) (x : Nibble) : Nibble := t[x.toNat]'(x.isLt)

/-- Every 4-bit value stands in the table once: it is a permutation of 0..15 (R8). -/
def isPermutation (t : Vector Nibble 16) : Bool := decide t.toList.Nodup

/-- `T[T[x]] = x` for every x (R8). -/
def isInvolution (t : Vector Nibble 16) : Bool :=
  (List.range 16).all fun k => tableAt t (tableAt t (BitVec.ofNat 4 k)) == BitVec.ofNat 4 k

/-- The bytes an identity must have, by their indices: one byte each for the key, the firmware
version and the status bits, two for each 16-bit field (41_identity R121). -/
def mandatoryIndices (l : IdLayout) : List Nat :=
  [ l.key, l.fw1, l.fw2, l.article, l.article + 1, l.machine, l.machine + 1, l.serial, l.serial + 1,
    l.date1, l.date1 + 1, l.date2, l.date2 + 1, l.statusBits ]

/-- `ID_MIN_LEN`: one more than the highest mandatory byte index (41_identity R121, R125). -/
def idMinLen (l : IdLayout) : Nat := (mandatoryIndices l).foldl max 0 + 1

/-- Every body offset DECPR reads, the fixed 0 and 1 of PR_STATE and PR_PRODUCT among them
(43_brew_progress R151, R157). -/
def progOffsets (l : ProgLayout) : List Nat :=
  [ 0, 1, l.strengthCur, l.strengthMax, l.waterCur, l.waterMax, l.milkTimeCur, l.milkTimeMax,
    l.foamCur, l.foamMax, l.tempMax, l.pauseMax, l.flagRaw, l.intake ]

/-- `PR_MIN_LEN`: 2 plus the highest body offset used (43_brew_progress R151, R157). -/
def prMinLen (l : ProgLayout) : Nat := (progOffsets l).foldl max 0 + 2

/-- `CNT_MAX = floor(BUF_BYTES / 3)` (10_state R37). -/
def cntMax (c : Config) : Nat := c.bufBytes / 3

/-- Every offset of `ID_LAYOUT` (R8). -/
def idOffsets (l : IdLayout) : List Nat :=
  [ l.key, l.fw1, l.fw2, l.article, l.machine, l.serial, l.date1, l.date2, l.statusBits,
    l.ver1Start, l.ver2Start, l.tabletStart ]

/-- The Product Progress payload of JBLE §8 (95_test_vectors S4). -/
def jbleProgressVector : List Byte :=
  [ 0x2a#8, 0x34#8, 0x04#8, 0x04#8, 0x04#8, 0x00#8, 0x0e#8, 0x01#8, 0x01#8, 0x09#8,
    0x12#8, 0x11#8, 0x00#8, 0x00#8, 0x11#8, 0x00#8, 0x00#8, 0x00#8, 0x00#8, 0x00#8 ]

/-- Body offset `o` of the JBLE §8 payload holds `v`. -/
def vectorHolds (o : Nat) (v : Byte) : Bool := jbleProgressVector[1 + o]? == some v

/-- The layout gives the JBLE §8 vector its stated result (43_brew_progress R157).  DESIGN CHOICE, safe:
any offsets that do are accepted, a pair outside 2..9 or two arguments at one offset too (log 25). -/
def fitsJbleVector (l : ProgLayout) : Bool :=
  decide (prMinLen l ≤ 20) && vectorHolds l.strengthCur 4#8 && vectorHolds l.strengthMax 4#8
    && vectorHolds l.waterCur 0#8 && vectorHolds l.waterMax 0x0e#8
    && vectorHolds l.milkTimeCur 1#8 && vectorHolds l.milkTimeMax 1#8
    && vectorHolds l.foamCur 9#8 && vectorHolds l.foamMax 0x12#8
    && vectorHolds l.tempMax 0x11#8 && vectorHolds l.pauseMax 0#8
    && vectorHolds l.flagRaw 0#8 && vectorHolds l.intake 0x11#8

/-- The checks a model makes before it accepts a configuration (00_scope R8), and the one of
43_brew_progress R157 (log 13). -/
def configValid (c : Config) : Bool :=
  isPermutation c.t1 && isPermutation c.t2 && isInvolution c.t1 && isInvolution c.t2
    && decide (56 ≤ c.bufBytes)
    && (idOffsets c.idLayout).all (fun o => decide (o ≤ c.bufBytes - 1))
    && (progOffsets c.progLayout).all (fun o => decide (o ≤ c.bufBytes - 1))
    && fitsJbleVector c.progLayout

/-- The default `T1` of R7 (from general knowledge, 93_implementation_defined G1; PRESUMED, log 2). -/
def defaultT1 : Vector Nibble 16 :=
  #v[14#4, 4#4, 3#4, 2#4, 1#4, 13#4, 8#4, 11#4, 6#4, 15#4, 12#4, 7#4, 10#4, 5#4, 0#4, 9#4]

/-- The default `T2` of R7 (PRESUMED, log 2). -/
def defaultT2 : Vector Nibble 16 :=
  #v[10#4, 6#4, 13#4, 12#4, 14#4, 11#4, 1#4, 9#4, 15#4, 7#4, 0#4, 5#4, 3#4, 2#4, 4#4, 8#4]

/-- The default `ID_LAYOUT` (41_identity R121). -/
def defaultIdLayout : IdLayout :=
  { key := 0, fw1 := 1, fw2 := 2, article := 4, machine := 6, serial := 8, date1 := 10, date2 := 12,
    statusBits := 15, ver1Start := 27, ver1Width := 8, ver2Start := 35, ver2Width := 16,
    tabletStart := 51, tabletWidth := 4 }

/-- The default `PROG_LAYOUT` (43_brew_progress R151). -/
def defaultProgLayout : ProgLayout :=
  { strengthCur := 2, strengthMax := 3, waterCur := 4, waterMax := 5, milkTimeCur := 6,
    milkTimeMax := 7, foamCur := 8, foamMax := 9, tempMax := 10, pauseMax := 11, flagRaw := 12,
    intake := 13 }

/-- The configuration at reset: the defaults of R7, the suggested `BUF_BYTES` 512 (log 2), and the
two parameters without a default left open (log 3). -/
def resetConfig : Config :=
  { t1 := defaultT1, t2 := defaultT2, bufBytes := 512, idLayout := defaultIdLayout,
    progLayout := defaultProgLayout, knownMask := Config.openKnownMask,
    kaFirst := Config.openKaFirst, kaSecond := Config.openKaSecond }

end Sys2Proof.Machine
end

