-- ==== Sys2Proof/Machine/State.lean ====
section
/-! DEFINITION. The state of NSCE as plain data: everything 10_state R20 names, the configuration it
runs under (log 1), and the host's side of the interface (log 6, log 7). -/

namespace Sys2Proof.Machine

/-- A byte array, as the list of its bytes that hold a value: (index, byte) pairs, indices strictly
rising.  An index not listed has no value, and reading it faults (10_state R39, R41; log 5). -/
abbrev Memory := List Host.Cell

/-- The values of STATUS.ERR (10_state R26).  The reserved codes 7..15 are never produced. -/
inductive Err where
  | ok
  | decode
  | statsUnavailable
  | config
  | illegal
  | overflow
  | nokey
  deriving DecidableEq, Repr

/-- STATUS by its named fields (10_state R25); its reserved bits are hard-wired to 0 in the one view
of it as a word, `statusWord` of Flags.lean (log 9). -/
structure Status where
  /-- STATUS[3:0]. -/
  err    : Err
  /-- STATUS[4]: a command since reset ended with a fault code (R27). -/
  sticky : Bool
  /-- STATUS[8]: the identity record is valid (R28). -/
  idV    : Bool
  /-- STATUS[9]: the status-bitmap record is valid. -/
  stV    : Bool
  /-- STATUS[10]: the brew-progress record is valid. -/
  prV    : Bool
  /-- STATUS[11]: the statistics record is valid. -/
  cntV   : Bool
  /-- STATUS[12]: KEY holds a value (R21). -/
  keyV   : Bool
  /-- STATUS[13]: statistics available (R29). -/
  sa     : Bool
  /-- STATUS[23:16]: the opcode of the last command (R30). -/
  lastOp : Byte
  deriving DecidableEq, Repr

/-- The identity record (10_state R34): the field of ID_X is `x`. -/
structure IdentityRecord where
  key        : Byte
  fw1        : Byte
  fw2        : Byte
  article    : BitVec 16
  machine    : BitVec 16
  serial     : BitVec 16
  date1Raw   : BitVec 16
  date1Y     : BitVec 12
  date1M     : BitVec 5
  date1D     : BitVec 6
  date2Raw   : BitVec 16
  date2Y     : BitVec 12
  date2M     : BitVec 5
  date2D     : BitVec 6
  statusBits : Byte
  p1         : Bool
  p2         : Bool
  p3         : Bool
  /-- The bytes of ID_VER1, ID_VER1_LEN of them when present (log 15). -/
  ver1       : List Byte
  ver1Len    : Nat
  ver2       : List Byte
  ver2Len    : Nat
  /-- ID_TABLET, a number of 8 times the configured width bits (R34; log 14). -/
  tablet     : Nat
  tabletLen  : Nat
  deriving DecidableEq, Repr

/-- The status-bitmap record (10_state R35). -/
structure AlertRecord where
  raw   : BitVec 64
  alert : BitVec 64
  deriving DecidableEq, Repr

/-- The brew-progress record (10_state R36): the field of PR_X is `x`, `milkTime` standing for MILKT. -/
structure ProgressRecord where
  state       : Byte
  product     : Byte
  strengthCur : Byte
  strengthMax : Byte
  waterCur    : Byte
  waterMax    : Byte
  milkTimeCur : Byte
  milkTimeMax : Byte
  foamCur     : Byte
  foamMax     : Byte
  tempMax     : Byte
  pauseMax    : Byte
  intake      : Byte
  flagRaw     : Byte
  valid       : Bool
  deriving DecidableEq, Repr

/-- The statistics record (10_state R37): `cnt` holds CNT[0..CNT_MAX-1]. -/
structure StatisticsRecord where
  cntN : Nat
  cnt  : List (BitVec 24)
  deriving DecidableEq, Repr

/-- The registers a host can ask for: those 10_state R40 lets it read (STATUS, OUT, OUT_LEN and every
record register), and those it may not read (KEY, IN, IN_LEN, CTR). -/
inductive HostReg where
  | status
  | outLen
  | outByte (j : Nat)
  | idKey
  | idFw1
  | idFw2
  | idArticle
  | idMachine
  | idSerial
  | idDate1Raw
  | idDate1Y
  | idDate1M
  | idDate1D
  | idDate2Raw
  | idDate2Y
  | idDate2M
  | idDate2D
  | idStatusBits
  | idP1
  | idP2
  | idP3
  | idVer1
  | idVer1Len
  | idVer2
  | idVer2Len
  | idTablet
  | idTabletLen
  | alertRaw
  | alert
  | prState
  | prProduct
  | prStrengthCur
  | prStrengthMax
  | prWaterCur
  | prWaterMax
  | prMilkTimeCur
  | prMilkTimeMax
  | prFoamCur
  | prFoamMax
  | prTempMax
  | prPauseMax
  | prIntake
  | prFlagRaw
  | prValid
  | cntN
  | cnt (m : Nat)
  | key
  | inByte (j : Nat)
  | inLen
  | ctr
  deriving DecidableEq, Repr

/-- One step of the host (70_reset_and_hazards R246). -/
inductive HostAction where
  /-- R240: put a byte sequence into IN. -/
  | load (bytes : List Byte)
  /-- R70: issue a command word, legal or not. -/
  | command (word : CommandWord)
  /-- R241: take OUT[0..OUT_LEN-1]. -/
  | fetch
  /-- R241: read a register. -/
  | readReg (r : HostReg)
  /-- R25: write STATUS, which has no effect. -/
  | writeStatus (v : BitVec 32)
  /-- R230: reset. -/
  | reset
  deriving DecidableEq, Repr

/-- What NSCE gives the host back (70_reset_and_hazards R246; log 7). -/
inductive Reply where
  /-- LOAD, a write to STATUS and reset give nothing. -/
  | nothing
  /-- A command gives STATUS. -/
  | status (w : BitVec 32)
  /-- FETCH gives OUT[0..OUT_LEN-1], a read of a version string its bytes. -/
  | bytes (b : List Byte)
  /-- A register read gives the register's value as a number. -/
  | value (v : Nat)
  deriving DecidableEq, Repr

/-- The state. -/
structure State where
  /-- The configuration, which no step writes (00_scope R7, log 1). -/
  cfg        : Config
  /-- KEY (R21); its valid bit KEY_V is `status.keyV`. -/
  key        : Byte
  /-- IN (R22). -/
  inBuf      : Memory
  /-- IN_LEN (R22). -/
  inLen      : Nat
  /-- OUT (R23). -/
  outBuf     : Memory
  /-- OUT_LEN (R23). -/
  outLen     : Nat
  /-- STATUS (R25). -/
  status     : Status
  /-- CTR, the hidden nibble counter (R32; log 8). -/
  ctr        : BitVec 8
  /-- The identity record (R34). -/
  identity   : IdentityRecord
  /-- The status-bitmap record (R35). -/
  alerts     : AlertRecord
  /-- The brew-progress record (R36). -/
  progress   : ProgressRecord
  /-- The statistics record (R37). -/
  statistics : StatisticsRecord
  /-- The model's own: the host's actions still to come, the next one first (log 6). -/
  host       : List HostAction
  /-- The model's own: what the last host action gave back (log 7). -/
  reply      : Reply
  deriving DecidableEq, Repr

/-- Why the machine stops at an error of the host program, or at a state no run from reset reaches.
All are safe: the model gives no value where the spec gives none. -/
inductive Fault where
  /-- Raised by a command or FETCH whose buffer byte below its length holds no value.  No run from
  reset reaches it (20_memory R52).  Safe (log 5, log 11). -/
  | unspecifiedByte
  /-- Raised by a command or FETCH at a buffer length or an output above BUF_BYTES.  No run from reset
  reaches it (20_memory R51).  Safe (log 11). -/
  | outsideBuffer
  /-- Raised by a host read of a register that is not meaningful: a record whose valid bit is 0, an
  absent optional field, OUT at or above OUT_LEN, CNT at or above CNT_N (10_state R28, R41; 93 U2,
  U14).  Safe (log 17). -/
  | notMeaningful (r : HostReg)
  /-- Raised by a host read of a register the host may not read (10_state R32, R40).  Safe (log 17). -/
  | notReadable (r : HostReg)
  deriving DecidableEq, Repr

/-- Why a step has no meaning.  All are safe. -/
inductive Refusal where
  /-- Raised by an arm of `exec` for an instruction that is not modelled yet; no arm is.  Safe. -/
  | notModelled (mnemonic : String)
  /-- Raised by every step under a configuration that fails 00_scope R8 or 43_brew_progress R157
  (R232, 93 U17).  Safe (log 18). -/
  | badConfiguration
  /-- Raised by a LOAD of more than BUF_BYTES bytes (70_reset_and_hazards R240, 93 U16).  Safe (log 18). -/
  | loadTooLong
  deriving DecidableEq, Repr

/-- STATUS = 0x00000000 (10_state R39). -/
def Status.reset : Status :=
  { err := .ok, sticky := false, idV := false, stV := false, prV := false, cntV := false,
    keyV := false, sa := false, lastOp := 0x00#8 }

/-- The identity record after reset, which 10_state R39 leaves unspecified (DESIGN CHOICE, log 4). -/
def IdentityRecord.reset : IdentityRecord :=
  { key := 0, fw1 := 0, fw2 := 0, article := 0, machine := 0, serial := 0,
    date1Raw := 0, date1Y := 0, date1M := 0, date1D := 0,
    date2Raw := 0, date2Y := 0, date2M := 0, date2D := 0,
    statusBits := 0, p1 := false, p2 := false, p3 := false,
    ver1 := [], ver1Len := 0, ver2 := [], ver2Len := 0, tablet := 0, tabletLen := 0 }

/-- The status-bitmap record after reset (R39 leaves it unspecified; DESIGN CHOICE, log 4). -/
def AlertRecord.reset : AlertRecord := { raw := 0, alert := 0 }

/-- The brew-progress record after reset (R39 leaves it unspecified; DESIGN CHOICE, log 4). -/
def ProgressRecord.reset : ProgressRecord :=
  { state := 0, product := 0, strengthCur := 0, strengthMax := 0, waterCur := 0, waterMax := 0,
    milkTimeCur := 0, milkTimeMax := 0, foamCur := 0, foamMax := 0, tempMax := 0, pauseMax := 0,
    intake := 0, flagRaw := 0, valid := false }

/-- The statistics record after reset (R39 leaves it unspecified; DESIGN CHOICE, log 4). -/
def StatisticsRecord.reset (c : Config) : StatisticsRecord :=
  { cntN := 0, cnt := List.replicate (cntMax c) 0 }

/-- The machine after a reset under configuration `c`, with the host's actions `h` still to come: the
values of 10_state R39 (R230, R232). -/
def State.resetUnder (c : Config) (h : List HostAction) : State :=
  { cfg := c, key := 0x00#8, inBuf := [], inLen := 0, outBuf := [], outLen := 0,
    status := Status.reset, ctr := 0x00#8, identity := IdentityRecord.reset,
    alerts := AlertRecord.reset, progress := ProgressRecord.reset,
    statistics := StatisticsRecord.reset c, host := h, reply := .nothing }

/-- The machine right after reset (R230, R231): no command has been issued, and the host has none to
come. -/
def State.reset : State := State.resetUnder resetConfig []

end Sys2Proof.Machine
end

