-- ==== Sys2Proof/Machine/Memory.lean ====
section
/-! DEFINITION. The byte arrays IN and OUT (20_memory R50): reading and writing one byte and a run of
bytes, and the canonical form of the list that holds them (log 5). -/

namespace Sys2Proof.Machine

/-- The canonical form: indices strictly rising.  An index not listed has no value, so no entry can
equal what an unlisted index reads as. -/
abbrev Memory.wf (m : Memory) : Prop := m.Pairwise (fun x y => x.1 < y.1)

/-- `B[j]`, or `none` where the byte holds no value (00_scope R11; 10_state R41). -/
def Memory.read (m : Memory) (a : Nat) : Option Byte :=
  match m with
  | [] => none
  | c :: rest => if c.1 = a then some c.2 else Memory.read rest a

/-- Write one byte, keeping the indices rising. -/
def Memory.write (m : Memory) (a : Nat) (b : Byte) : Memory :=
  match m with
  | [] => [(a, b)]
  | c :: rest =>
    if a < c.1 then (a, b) :: c :: rest
    else if a = c.1 then (a, b) :: rest
    else c :: Memory.write rest a b

/-- `MemWrite(B, a, n, s)`: the bytes of `s` at `a`, `a + 1`, ... (00_scope R11). -/
def Memory.writeBytes (m : Memory) (a : Nat) (s : List Byte) : Memory :=
  match s with
  | [] => m
  | b :: rest => Memory.writeBytes (Memory.write m a b) (a + 1) rest

/-- `MemRead(B, a, n)`: n consecutive bytes, or `none` where one of them holds no value (00_scope R11). -/
def Memory.readBytes (m : Memory) (a n : Nat) : Option (List Byte) :=
  match n with
  | 0 => some []
  | k + 1 =>
    match Memory.read m a, Memory.readBytes m (a + 1) k with
    | some b, some rest => some (b :: rest)
    | _, _ => none

end Sys2Proof.Machine
end

