-- ==== Sys2Proof/Machine/Flags.lean ====
section
/-! DEFINITION. STATUS: the error codes, which of them are faults, the register as one word, and the
two ways a command ends it (10_state R25 to R31). -/

namespace Sys2Proof.Machine

/-- The code of an error in STATUS[3:0] (10_state R26). -/
def errCode (e : Err) : BitVec 4 :=
  match e with
  | .ok => 0#4
  | .decode => 1#4
  | .statsUnavailable => 2#4
  | .config => 3#4
  | .illegal => 4#4
  | .overflow => 5#4
  | .nokey => 6#4

/-- The fault codes, which set STICKY; STATS_UNAVAILABLE is an outcome, not a fault (10_state R27,
60_exceptions R228). -/
def isFault (e : Err) : Bool :=
  match e with
  | .ok => false
  | .decode => true
  | .statsUnavailable => false
  | .config => true
  | .illegal => true
  | .overflow => true
  | .nokey => true

/-- A one-bit field of a 32-bit word at bit `k`. -/
def bitAt (b : Bool) (k : Nat) : BitVec 32 := (BitVec.ofBool b).setWidth 32 <<< k

/-- STATUS as a 32-bit word; [7:5], [15:14] and [31:24] are hard-wired to 0 (10_state R25). -/
def statusWord (s : Status) : BitVec 32 :=
  (errCode s.err).setWidth 32 ||| bitAt s.sticky 4 ||| bitAt s.idV 8 ||| bitAt s.stV 9
    ||| bitAt s.prV 10 ||| bitAt s.cntV 11 ||| bitAt s.keyV 12 ||| bitAt s.sa 13
    ||| (s.lastOp.setWidth 32 <<< 16)

/-- The STATUS write of a command with opcode `op` that ends with `e`: ERR, STICKY where `e` is a
fault, LAST_OP; every other field keeps its value (10_state R27, R30, R31). -/
def statusAfter (e : Err) (op : Byte) (s : Status) : Status :=
  { s with err := e, sticky := s.sticky || isFault e, lastOp := op }

end Sys2Proof.Machine
end

