-- ==== Sys2Proof/Machine/Operands.lean ====
section
/-! DEFINITION. How bytes become operands: field assembly by byte order (20_memory R55), the modular
arithmetic of the tables (00_scope R10), packed dates (41_identity R122), optional fields (R123),
alert bits (42_status_bitmap R142), counter groups (44_statistics R174) and property pairs
(45_product_encode R181).  Every function reads the bytes of IN below IN_LEN, taken as a list. -/

namespace Sys2Proof.Machine

/-- `IN[j]` for `j < IN_LEN`.  Callers check the length first (20_memory R52): no command asks for a
byte the list does not have, so the 0 is never taken. -/
def byteAt (b : List Byte) (j : Nat) : Byte := b.getD j 0x00#8

/-- `LE16(B, j) = B[j] | (B[j+1] << 8)` (00_scope R11). -/
def le16 (b : List Byte) (j : Nat) : BitVec 16 :=
  (byteAt b j).setWidth 16 ||| ((byteAt b (j + 1)).setWidth 16 <<< 8)

/-- `BE24`: the first byte is the most significant (00_scope R11). -/
def be24 (x y z : Byte) : BitVec 24 :=
  (x.setWidth 24 <<< 16) ||| (y.setWidth 24 <<< 8) ||| z.setWidth 24

/-- `LEn(s)`: the sum of `s[m] << (8*m)` (00_scope R11). -/
def leNumber (s : List Byte) : Nat :=
  match s with
  | [] => 0
  | x :: rest => x.toNat + 256 * leNumber rest

/-- `mod16(x)`: the remainder in 0..15, of a negative x too (00_scope R10). -/
def mod16 (x : Int) : Nibble := BitVec.ofNat 4 (x % 16).toNat

/-- The year of a packed date: 1990 + v[15:9] (41_identity R122). -/
def dateYear (v : BitVec 16) : BitVec 12 := 1990#12 + (v.extractLsb' 9 7).setWidth 12

/-- The month of a packed date: 1 + v[8:5] (41_identity R122). -/
def dateMonth (v : BitVec 16) : BitVec 5 := 1#5 + (v.extractLsb' 5 4).setWidth 5

/-- The day of a packed date: 1 + v[4:0] (41_identity R122). -/
def dateDay (v : BitVec 16) : BitVec 6 := 1#6 + (v.extractLsb' 0 5).setWidth 6

/-- The bytes an optional field takes: those of its `width` bytes from `start` that exist
(41_identity R123, R125). -/
def fieldBytes (start width : Nat) (b : List Byte) : List Byte := (b.drop start).take width

/-- Bit index j of the status bitmap: bit `7 - (j mod 8)` of byte `1 + floor(j / 8)`, 0 where IN has
no such byte (42_status_bitmap R142, R143). -/
def alertBit (b : List Byte) (j : Nat) : Bool :=
  decide (1 + j / 8 < b.length) && (byteAt b (1 + j / 8)).getLsbD (7 - j % 8)

/-- The loop of 42_status_bitmap R141 over j = 0..63. -/
def alertBits (b : List Byte) : BitVec 64 :=
  (List.range 64).foldl (fun v j => if alertBit b j then v ||| (1#64 <<< j) else v) 0#64

/-- The big-endian 24-bit groups; trailing bytes that form no group are ignored (44_statistics R174). -/
def counterGroups (b : List Byte) : List (BitVec 24) :=
  match b with
  | x :: y :: z :: rest => be24 x y z :: counterGroups rest
  | _ => []

/-- The (slot, value) pairs after the product code (45_product_encode R181). -/
def propertyPairs (b : List Byte) : List (Byte × Byte) :=
  match b with
  | slot :: value :: rest => (slot, value) :: propertyPairs rest
  | _ => []

/-- A slot is in 1..11 (45_product_encode R183). -/
def slotOk (slot : Byte) : Bool := decide (1 ≤ slot.toNat) && decide (slot.toNat ≤ 11)

/-- The 15 bytes of a brew command: the code, 14 zeros, then each value at its slot - 1, a later pair
over an earlier one (45_product_encode R182). -/
def brewBytes (code : Byte) (pairs : List (Byte × Byte)) : List Byte :=
  pairs.foldl (fun r p => r.set (p.1.toNat - 1) p.2) (code :: List.replicate 14 0x00#8)

end Sys2Proof.Machine
end

