-- ==== Sys2Proof/Machine/Transform.lean ====
section
/-! DEFINITION. The nibble-substitution transform (40_cipher R100 to R105), as the rule is written
(R111), and beside it the datapath of R112 with its 8-bit counter. -/

namespace Sys2Proof.Machine

/-- `keyHi = key[7:4]` (40_cipher R102). -/
def highNibble (x : Byte) : Nibble := x.extractLsb' 4 4

/-- `keyLo = key[3:0]` (40_cipher R102). -/
def lowNibble (x : Byte) : Nibble := x.extractLsb' 0 4

/-- `(hi << 4) | lo` (40_cipher R105). -/
def joinNibbles (hi lo : Nibble) : Byte := (hi.setWidth 8 <<< 4) ||| lo.setWidth 8

/-- `nib(n, i, keyHi, keyLo)`, the four steps of 40_cipher R104 on integers. -/
def nib (c : Config) (n : Nibble) (i : Nat) (keyHi keyLo : Nibble) : Nibble :=
  let i5 : Int := (i >>> 4 : Nat)
  let ii : Int := i
  let kh : Int := keyHi.toNat
  let kl : Int := keyLo.toNat
  let a := tableAt c.t1 (mod16 (n.toNat + ii + kh))
  let b := tableAt c.t2 (mod16 (a.toNat + kl + i5 - ii - kh))
  let d := tableAt c.t1 (mod16 (b.toNat + kh + ii - kl - i5))
  mod16 (d.toNat - ii - kh)

/-- Byte j of a transform: the high nibble at index 2j, the low one at 2j + 1 (40_cipher R105). -/
def transformByte (c : Config) (key : Byte) (j : Nat) (x : Byte) : Byte :=
  joinNibbles (nib c (highNibble x) (2 * j) (highNibble key) (lowNibble key))
    (nib c (lowNibble x) (2 * j + 1) (highNibble key) (lowNibble key))

/-- The bytes from position `j` on. -/
def transformFrom (c : Config) (key : Byte) (j : Nat) (s : List Byte) : List Byte :=
  match s with
  | [] => []
  | x :: rest => transformByte c key j x :: transformFrom c key (j + 1) rest

/-- `transform(s, key)`: the nibble index starts at 0 (40_cipher R103, R105). -/
def transform (c : Config) (key : Byte) (s : List Byte) : List Byte := transformFrom c key 0 s

/-- CTR after a transform of `n` bytes: set to 0, one step for each of 2n nibbles, 8 bits wide
(10_state R32; log 8). -/
def counterAfter (n : Nat) : BitVec 8 := BitVec.ofNat 8 (2 * n)

/-- One nibble through the datapath of 40_cipher R112, with 4-bit wrap-around adders. -/
def datapathNibble (c : Config) (ctr : BitVec 8) (keyHi keyLo n : Nibble) : Nibble :=
  let ci := ctr.extractLsb' 0 4
  let ch := ctr.extractLsb' 4 4
  let a := tableAt c.t1 (n + ci + keyHi)
  let b := tableAt c.t2 (a + keyLo + ch - ci - keyHi)
  let d := tableAt c.t1 (b + keyHi + ci - keyLo - ch)
  d - ci - keyHi

/-- The datapath over a byte sequence, CTR stepping after each nibble (40_cipher R112): the bytes out
and the CTR it ends with. -/
def datapath (c : Config) (key : Byte) (ctr : BitVec 8) (s : List Byte) : List Byte × BitVec 8 :=
  match s with
  | [] => ([], ctr)
  | x :: rest =>
    let hi := datapathNibble c ctr (highNibble key) (lowNibble key) (highNibble x)
    let lo := datapathNibble c (ctr + 1#8) (highNibble key) (lowNibble key) (lowNibble x)
    let r := datapath c key (ctr + 2#8) rest
    (joinNibbles hi lo :: r.1, r.2)

end Sys2Proof.Machine
end

