-- ==== Sys2Proof/Machine/Ops.lean ====
section
/-! DEFINITION. The named operations over the state: register and buffer updates, reading the input
and the output, the two ways a command ends (with a result, or by `raise`, 60_exceptions R211). -/

namespace Sys2Proof.Machine

/-- Write STATUS. -/
def State.setStatus (s : State) (st : Status) : State := { s with status := st }

/-- Write KEY and set KEY_V (46_framing_and_control R191, R192). -/
def State.setKey (s : State) (k : Byte) : State :=
  { s with key := k, status := { s.status with keyV := true } }

/-- Write IN[0..n-1] and IN_LEN; the bytes above keep what they held (10_state R22; log 10). -/
def State.storeIn (s : State) (b : List Byte) : State :=
  { s with inBuf := s.inBuf.writeBytes 0 b, inLen := b.length }

/-- Write OUT[0..n-1] and OUT_LEN (20_memory R53; log 10). -/
def State.storeOut (s : State) (b : List Byte) : State :=
  { s with outBuf := s.outBuf.writeBytes 0 b, outLen := b.length }

/-- Write CTR (10_state R32). -/
def State.setCtr (s : State) (v : BitVec 8) : State := { s with ctr := v }

/-- Write ID_V (10_state R28). -/
def State.setIdV (s : State) (v : Bool) : State := { s with status := { s.status with idV := v } }

/-- Write ST_V (10_state R28). -/
def State.setStV (s : State) (v : Bool) : State := { s with status := { s.status with stV := v } }

/-- Write PR_V (10_state R28). -/
def State.setPrV (s : State) (v : Bool) : State := { s with status := { s.status with prV := v } }

/-- Write CNT_V (10_state R28). -/
def State.setCntV (s : State) (v : Bool) : State := { s with status := { s.status with cntV := v } }

/-- Write SA (10_state R29). -/
def State.setSa (s : State) (v : Bool) : State := { s with status := { s.status with sa := v } }

/-- Write the identity record. -/
def State.setIdentity (s : State) (r : IdentityRecord) : State := { s with identity := r }

/-- Write the status-bitmap record. -/
def State.setAlerts (s : State) (r : AlertRecord) : State := { s with alerts := r }

/-- Write the brew-progress record. -/
def State.setProgress (s : State) (r : ProgressRecord) : State := { s with progress := r }

/-- Write the statistics record. -/
def State.setStatistics (s : State) (r : StatisticsRecord) : State := { s with statistics := r }

/-- A command with opcode `op` ends with ERR `e`: its one write of STATUS (10_state R31). -/
def State.finish (s : State) (e : Err) (op : Byte) : State := s.setStatus (statusAfter e op s.status)

/-- `raise e` of a command with opcode `op`: STATUS is all that changes (60_exceptions R211, R213).
The bit the command owns is cleared by the caller, before. -/
def State.raise (s : State) (e : Err) (op : Byte) : Host.Outcome State Fault Refusal :=
  .next (s.finish e op)

/-- The first `n` bytes of a buffer of `cap` bytes: a fault where the length is above the capacity or
a byte holds no value (20_memory R51, R52; log 11). -/
def leadingBytes (cap : Nat) (m : Memory) (n : Nat) : Except Fault (List Byte) :=
  if n ≤ cap then
    match m.readBytes 0 n with
    | some b => .ok b
    | none => .error .unspecifiedByte
  else .error .outsideBuffer

/-- IN[0..IN_LEN-1] (10_state R22). -/
def State.input (s : State) : Except Fault (List Byte) := leadingBytes s.cfg.bufBytes s.inBuf s.inLen

/-- OUT[0..OUT_LEN-1] (10_state R23). -/
def State.output (s : State) : Except Fault (List Byte) := leadingBytes s.cfg.bufBytes s.outBuf s.outLen

/-- Go on with IN[0..IN_LEN-1]. -/
def State.withInput (s : State) (k : List Byte → Host.Outcome State Fault Refusal) :
    Host.Outcome State Fault Refusal :=
  match s.input with
  | .ok b => k b
  | .error f => .fault f

/-- Go on with OUT[0..OUT_LEN-1]. -/
def State.withOutput (s : State) (k : List Byte → Host.Outcome State Fault Refusal) :
    Host.Outcome State Fault Refusal :=
  match s.output with
  | .ok b => k b
  | .error f => .fault f

/-- A producer ends with the bytes `b` in OUT and ERR = OK (20_memory R53).  The bytes fit whenever
IN_LEN is at most BUF_BYTES; no command forms an index at or above it (R51). -/
def State.produce (s : State) (op : Byte) (b : List Byte) : Host.Outcome State Fault Refusal :=
  if b.length ≤ s.cfg.bufBytes then .next ((s.storeOut b).finish .ok op) else .fault .outsideBuffer

/-- The transform as a command applies it: CTR runs from 0 over the nibbles (10_state R32). -/
def State.runCounter (s : State) (n : Nat) : State := s.setCtr (counterAfter n)

end Sys2Proof.Machine
end

