-- ==== Sys2Proof/Machine/Cipher.lean ====
section
/-! DEFINITION. The cipher and framing commands XFORM (40_cipher R101) and FRAME
(46_framing_and_control R194). -/

namespace Sys2Proof.Machine

/-- XFORM (R101): NOKEY before IN is read (60_exceptions R214). -/
def execXform (c : Bool) (s : State) : Host.Outcome State Fault Refusal :=
  if c && !s.status.keyV then s.raise .nokey 0x10#8
  else s.withInput fun b =>
    if c then (s.runCounter b.length).produce 0x10#8 (transform s.cfg s.key b)
    else s.produce 0x10#8 b

/-- The payload of FRAME before the transform: the key first (P), last (A), or not at all (R194, R197). -/
def framedBytes (p a : Bool) (key : Byte) (b : List Byte) : List Byte :=
  (if p then [key] else []) ++ b ++ (if a then [key] else [])

/-- FRAME (R194).  P = A = 1 is no command: the word ends in ILLEGAL, before anything else (30_encoding
R76, 60_exceptions R215; log 12).  Then NOKEY, then OVERFLOW, before IN is read. -/
def execFrame (c p a : Bool) (s : State) : Host.Outcome State Fault Refusal :=
  if p && a then s.raise .illegal 0x11#8
  else if (c || p || a) && !s.status.keyV then s.raise .nokey 0x11#8
  else if s.cfg.bufBytes < s.inLen + p.toNat + a.toNat then s.raise .overflow 0x11#8
  else s.withInput fun b =>
    if c then
      (s.runCounter (framedBytes p a s.key b).length).produce 0x11#8
        (transform s.cfg s.key (framedBytes p a s.key b))
    else s.produce 0x11#8 (framedBytes p a s.key b)

end Sys2Proof.Machine
end

