-- ==== Sys2Proof/Machine/Control.lean ====
section
/-! DEFINITION. The control commands NOP, SETKEY, KEYID and MOV (46_framing_and_control R190 to R193). -/

namespace Sys2Proof.Machine

/-- NOP (R190). -/
def execNop (s : State) : Host.Outcome State Fault Refusal := .next (s.finish .ok 0x00#8)

/-- SETKEY (R191). -/
def execSetkey (imm8 : Byte) (s : State) : Host.Outcome State Fault Refusal :=
  .next ((s.setKey imm8).finish .ok 0x01#8)

/-- KEYID (R192): DECODE exactly when DECID would raise it; the identity record is untouched. -/
def execKeyid (s : State) : Host.Outcome State Fault Refusal :=
  if s.inLen < idMinLen s.cfg.idLayout then s.raise .decode 0x02#8
  else s.withInput fun b => .next ((s.setKey (byteAt b s.cfg.idLayout.key)).finish .ok 0x02#8)

/-- MOV (R193). -/
def execMov (s : State) : Host.Outcome State Fault Refusal :=
  s.withOutput fun b => .next ((s.storeIn b).finish .ok 0x03#8)

end Sys2Proof.Machine
end

