-- ==== Sys2Proof/Machine/Decoders.lean ====
section
/-! DEFINITION. The decoder commands DECID (41_identity R124, R125), DECST (42_status_bitmap R141),
DECPR (43_brew_progress R153, R157), DECSTAT and STCHK (44_statistics R170, R172). -/

namespace Sys2Proof.Machine

/-- The identity record DECID writes: the mandatory fields at their configured offsets, and each
optional field when IN_LEN is above its threshold 27, 35 or 51.  The value register of an absent field
keeps what it held, which is not meaningful (R123, R124, R125; log 15). -/
def identityOf (l : IdLayout) (b : List Byte) (old : IdentityRecord) : IdentityRecord :=
  let v1 := fieldBytes l.ver1Start l.ver1Width b
  let v2 := fieldBytes l.ver2Start l.ver2Width b
  let tb := fieldBytes l.tabletStart l.tabletWidth b
  { key := byteAt b l.key
    fw1 := byteAt b l.fw1
    fw2 := byteAt b l.fw2
    article := le16 b l.article
    machine := le16 b l.machine
    serial := le16 b l.serial
    date1Raw := le16 b l.date1
    date1Y := dateYear (le16 b l.date1)
    date1M := dateMonth (le16 b l.date1)
    date1D := dateDay (le16 b l.date1)
    date2Raw := le16 b l.date2
    date2Y := dateYear (le16 b l.date2)
    date2M := dateMonth (le16 b l.date2)
    date2D := dateDay (le16 b l.date2)
    statusBits := byteAt b l.statusBits
    p1 := decide (27 < b.length)
    p2 := decide (35 < b.length)
    p3 := decide (51 < b.length)
    ver1 := if 27 < b.length then v1 else old.ver1
    ver1Len := if 27 < b.length then v1.length else 0
    ver2 := if 35 < b.length then v2 else old.ver2
    ver2Len := if 35 < b.length then v2.length else 0
    tablet := if 51 < b.length then leNumber tb else old.tablet
    tabletLen := if 51 < b.length then tb.length else 0 }

/-- DECID (R124, R125). -/
def execDecid (s : State) : Host.Outcome State Fault Refusal :=
  if s.inLen < idMinLen s.cfg.idLayout then (s.setIdV false).raise .decode 0x20#8
  else s.withInput fun b =>
    .next (((s.setIdentity (identityOf s.cfg.idLayout b s.identity)).setIdV true).finish .ok 0x20#8)

/-- The status-bitmap record DECST writes (42_status_bitmap R141, R144). -/
def alertsOf (mask : BitVec 64) (b : List Byte) : AlertRecord :=
  { raw := alertBits b, alert := alertBits b &&& mask }

/-- DECST (R141): accepts every IN_LEN. -/
def execDecst (s : State) : Host.Outcome State Fault Refusal :=
  s.withInput fun b =>
    .next (((s.setAlerts (alertsOf s.cfg.knownMask b)).setStV true).finish .ok 0x21#8)

/-- The brew-progress record DECPR writes: body offset o is IN[1 + o] (43_brew_progress R152 to R157). -/
def progressOf (l : ProgLayout) (b : List Byte) : ProgressRecord :=
  { state := byteAt b 1
    product := byteAt b 2
    strengthCur := byteAt b (1 + l.strengthCur)
    strengthMax := byteAt b (1 + l.strengthMax)
    waterCur := byteAt b (1 + l.waterCur)
    waterMax := byteAt b (1 + l.waterMax)
    milkTimeCur := byteAt b (1 + l.milkTimeCur)
    milkTimeMax := byteAt b (1 + l.milkTimeMax)
    foamCur := byteAt b (1 + l.foamCur)
    foamMax := byteAt b (1 + l.foamMax)
    tempMax := byteAt b (1 + l.tempMax)
    pauseMax := byteAt b (1 + l.pauseMax)
    intake := byteAt b (1 + l.intake)
    flagRaw := byteAt b (1 + l.flagRaw)
    valid := decide (byteAt b (1 + l.flagRaw) = 0x00#8) }

/-- DECPR (R153, R157). -/
def execDecpr (s : State) : Host.Outcome State Fault Refusal :=
  if s.inLen < prMinLen s.cfg.progLayout then (s.setPrV false).raise .decode 0x22#8
  else s.withInput fun b =>
    .next (((s.setProgress (progressOf s.cfg.progLayout b)).setPrV true).finish .ok 0x22#8)

/-- The statistics record DECSTAT writes: CNT[0..N-1] and CNT_N; the entries above keep what they held
(44_statistics R170; log 16). -/
def statisticsOf (b : List Byte) (old : StatisticsRecord) : StatisticsRecord :=
  { cntN := b.length / 3
    cnt := counterGroups b ++ old.cnt.drop (b.length / 3) }

/-- DECSTAT (R170): accepts every IN_LEN. -/
def execDecstat (s : State) : Host.Outcome State Fault Refusal :=
  s.withInput fun b =>
    .next (((s.setStatistics (statisticsOf b s.statistics)).setCntV true).finish .ok 0x23#8)

/-- STCHK (R172): SA is written on every path. -/
def execStchk (s : State) : Host.Outcome State Fault Refusal :=
  if s.inLen = 0 then (s.setSa false).raise .decode 0x24#8
  else s.withInput fun b =>
    if byteAt b 0 = 0x0E#8 then (s.setSa false).raise .statsUnavailable 0x24#8
    else .next ((s.setSa true).finish .ok 0x24#8)

end Sys2Proof.Machine
end

