-- ==== Sys2Proof/Machine/Encoders.lean ====
section
/-! DEFINITION. The encoder and constant-payload commands ENCPR (45_product_encode R180), STSEL
(44_statistics R171), BARISTA and KEEPALIVE (46_framing_and_control R195, R196). -/

namespace Sys2Proof.Machine

/-- ENCPR (R180): the length first, then every slot, then the write (R183, 60_exceptions R215). -/
def execEncpr (s : State) : Host.Outcome State Fault Refusal :=
  if s.inLen % 2 = 0 then s.raise .config 0x30#8
  else s.withInput fun b =>
    if (propertyPairs b.tail).all (fun p => slotOk p.1) then
      s.produce 0x30#8 (brewBytes (byteAt b 0) (propertyPairs b.tail))
    else s.raise .config 0x30#8

/-- The four selector bytes (R171). -/
def selectorBytes (m : StatsKind) : List Byte :=
  match m with
  | .total => [0x00#8, 0x01#8, 0xFF#8, 0xFF#8]
  | .daily => [0x00#8, 0x10#8, 0xFF#8, 0xFF#8]

/-- STSEL (R171). -/
def execStsel (m : StatsKind) (s : State) : Host.Outcome State Fault Refusal :=
  s.produce 0x31#8 (selectorBytes m)

/-- The lock byte (R195). -/
def lockBytes (l : LockAction) : List Byte :=
  match l with
  | .unlock => [0x00#8]
  | .lock => [0x01#8]

/-- BARISTA (R195). -/
def execBarista (l : LockAction) (s : State) : Host.Outcome State Fault Refusal :=
  s.produce 0x32#8 (lockBytes l)

/-- KEEPALIVE (R196): the configured `KA_PAYLOAD`. -/
def execKeepalive (s : State) : Host.Outcome State Fault Refusal :=
  s.produce 0x33#8 [s.cfg.kaFirst, s.cfg.kaSecond]

end Sys2Proof.Machine
end

