-- ==== Sys2Proof/Machine/Dispatch.lean ====
section
/-! DEFINITION. One arm per command: its meaning. -/

namespace Sys2Proof.Machine

/-- What a command does (20_memory R57: one atomic step). -/
def exec (i : Instr) (s : State) : Host.Outcome State Fault Refusal :=
  match i with
  | .nop => Sys2Proof.Machine.execNop s
  | .setkey imm8 => Sys2Proof.Machine.execSetkey imm8 s
  | .keyid => Sys2Proof.Machine.execKeyid s
  | .mov => Sys2Proof.Machine.execMov s
  | .xform c => Sys2Proof.Machine.execXform c s
  | .frame c p a => Sys2Proof.Machine.execFrame c p a s
  | .decid => Sys2Proof.Machine.execDecid s
  | .decst => Sys2Proof.Machine.execDecst s
  | .decpr => Sys2Proof.Machine.execDecpr s
  | .decstat => Sys2Proof.Machine.execDecstat s
  | .stchk => Sys2Proof.Machine.execStchk s
  | .encpr => Sys2Proof.Machine.execEncpr s
  | .stsel m => Sys2Proof.Machine.execStsel m s
  | .barista l => Sys2Proof.Machine.execBarista l s
  | .keepalive => Sys2Proof.Machine.execKeepalive s

end Sys2Proof.Machine
end

