-- ==== Sys2Proof/Machine/HostInterface.lean ====
section
/-! DEFINITION. The host's side: LOAD, a command word, FETCH, register reads, a write to STATUS and
reset (70_reset_and_hazards R230, R240, R241, R246), and the step that takes the next of them. -/

namespace Sys2Proof.Machine

/-- Record what the host is given back (R246; log 7). -/
def State.answer (s : State) (r : Reply) : State := { s with reply := r }

/-- Take the action at the head away: `rest` is what the host has still to do (log 6). -/
def State.withHost (s : State) (rest : List HostAction) : State := { s with host := rest }

/-- A host read that is meaningful only when `ok` holds (10_state R28, R41). -/
def readWhen (ok : Bool) (r : HostReg) (v : Reply) : Except Fault Reply :=
  if ok then .ok v else .error (.notMeaningful r)

/-- What a bit reads as. -/
def bitReply (b : Bool) : Reply := .value b.toNat

/-- The value of a register, or the fault of the host program (10_state R28, R40, R41; 93 U1, U2, U14;
log 17). -/
def hostRead (r : HostReg) (s : State) : Except Fault Reply :=
  match r with
  | .status => .ok (.value (statusWord s.status).toNat)
  | .outLen => .ok (.value s.outLen)
  | .outByte j =>
    match s.output with
    | .ok b =>
      match b[j]? with
      | some x => .ok (.value x.toNat)
      | none => .error (.notMeaningful (.outByte j))
    | .error f => .error f
  | .idKey => readWhen s.status.idV .idKey (.value s.identity.key.toNat)
  | .idFw1 => readWhen s.status.idV .idFw1 (.value s.identity.fw1.toNat)
  | .idFw2 => readWhen s.status.idV .idFw2 (.value s.identity.fw2.toNat)
  | .idArticle => readWhen s.status.idV .idArticle (.value s.identity.article.toNat)
  | .idMachine => readWhen s.status.idV .idMachine (.value s.identity.machine.toNat)
  | .idSerial => readWhen s.status.idV .idSerial (.value s.identity.serial.toNat)
  | .idDate1Raw => readWhen s.status.idV .idDate1Raw (.value s.identity.date1Raw.toNat)
  | .idDate1Y => readWhen s.status.idV .idDate1Y (.value s.identity.date1Y.toNat)
  | .idDate1M => readWhen s.status.idV .idDate1M (.value s.identity.date1M.toNat)
  | .idDate1D => readWhen s.status.idV .idDate1D (.value s.identity.date1D.toNat)
  | .idDate2Raw => readWhen s.status.idV .idDate2Raw (.value s.identity.date2Raw.toNat)
  | .idDate2Y => readWhen s.status.idV .idDate2Y (.value s.identity.date2Y.toNat)
  | .idDate2M => readWhen s.status.idV .idDate2M (.value s.identity.date2M.toNat)
  | .idDate2D => readWhen s.status.idV .idDate2D (.value s.identity.date2D.toNat)
  | .idStatusBits => readWhen s.status.idV .idStatusBits (.value s.identity.statusBits.toNat)
  | .idP1 => readWhen s.status.idV .idP1 (bitReply s.identity.p1)
  | .idP2 => readWhen s.status.idV .idP2 (bitReply s.identity.p2)
  | .idP3 => readWhen s.status.idV .idP3 (bitReply s.identity.p3)
  | .idVer1 => readWhen (s.status.idV && s.identity.p1) .idVer1 (.bytes s.identity.ver1)
  | .idVer1Len => readWhen s.status.idV .idVer1Len (.value s.identity.ver1Len)
  | .idVer2 => readWhen (s.status.idV && s.identity.p2) .idVer2 (.bytes s.identity.ver2)
  | .idVer2Len => readWhen s.status.idV .idVer2Len (.value s.identity.ver2Len)
  | .idTablet => readWhen (s.status.idV && s.identity.p3) .idTablet (.value s.identity.tablet)
  | .idTabletLen => readWhen s.status.idV .idTabletLen (.value s.identity.tabletLen)
  | .alertRaw => readWhen s.status.stV .alertRaw (.value s.alerts.raw.toNat)
  | .alert => readWhen s.status.stV .alert (.value s.alerts.alert.toNat)
  | .prState => readWhen s.status.prV .prState (.value s.progress.state.toNat)
  | .prProduct => readWhen s.status.prV .prProduct (.value s.progress.product.toNat)
  | .prStrengthCur => readWhen s.status.prV .prStrengthCur (.value s.progress.strengthCur.toNat)
  | .prStrengthMax => readWhen s.status.prV .prStrengthMax (.value s.progress.strengthMax.toNat)
  | .prWaterCur => readWhen s.status.prV .prWaterCur (.value s.progress.waterCur.toNat)
  | .prWaterMax => readWhen s.status.prV .prWaterMax (.value s.progress.waterMax.toNat)
  | .prMilkTimeCur => readWhen s.status.prV .prMilkTimeCur (.value s.progress.milkTimeCur.toNat)
  | .prMilkTimeMax => readWhen s.status.prV .prMilkTimeMax (.value s.progress.milkTimeMax.toNat)
  | .prFoamCur => readWhen s.status.prV .prFoamCur (.value s.progress.foamCur.toNat)
  | .prFoamMax => readWhen s.status.prV .prFoamMax (.value s.progress.foamMax.toNat)
  | .prTempMax => readWhen s.status.prV .prTempMax (.value s.progress.tempMax.toNat)
  | .prPauseMax => readWhen s.status.prV .prPauseMax (.value s.progress.pauseMax.toNat)
  | .prIntake => readWhen s.status.prV .prIntake (.value s.progress.intake.toNat)
  | .prFlagRaw => readWhen s.status.prV .prFlagRaw (.value s.progress.flagRaw.toNat)
  | .prValid => readWhen s.status.prV .prValid (bitReply s.progress.valid)
  | .cntN => readWhen s.status.cntV .cntN (.value s.statistics.cntN)
  | .cnt m =>
    readWhen (s.status.cntV && decide (m < s.statistics.cntN)) (.cnt m)
      (.value (s.statistics.cnt.getD m 0).toNat)
  | .key => .error (.notReadable .key)
  | .inByte j => .error (.notReadable (.inByte j))
  | .inLen => .error (.notReadable .inLen)
  | .ctr => .error (.notReadable .ctr)

/-- A command word handed to the engine: decoded, performed, STATUS given back; a word that is no
command ends in ILLEGAL and changes nothing but STATUS (30_encoding R70, R75, R76; 60_exceptions R211). -/
def issueWord (w : CommandWord) (s : State) : Host.Outcome State Fault Refusal :=
  match decode w with
  | .error _ =>
    let t := s.finish .illegal (opOf w)
    .next (t.answer (.status (statusWord t.status)))
  | .ok i =>
    match exec i s with
    | .next t => .next (t.answer (.status (statusWord t.status)))
    | .fault f => .fault f
    | .refused r => .refused r

/-- LOAD (70_reset_and_hazards R240). -/
def hostLoad (bytes : List Byte) (s : State) : Host.Outcome State Fault Refusal :=
  if bytes.length ≤ s.cfg.bufBytes then .next ((s.storeIn bytes).answer .nothing)
  else .refused .loadTooLong

/-- FETCH (R241). -/
def hostFetch (s : State) : Host.Outcome State Fault Refusal :=
  s.withOutput fun b => .next (s.answer (.bytes b))

/-- A register read (R241). -/
def hostReadReg (r : HostReg) (s : State) : Host.Outcome State Fault Refusal :=
  match hostRead r s with
  | .ok v => .next (s.answer v)
  | .error f => .fault f

/-- One action of the host (R246).  Reset keeps the configuration (R232) and what the host has still
to do. -/
def hostStep (a : HostAction) (s : State) : Host.Outcome State Fault Refusal :=
  match a with
  | .load bytes => hostLoad bytes s
  | .command w => issueWord w s
  | .fetch => hostFetch s
  | .readReg r => hostReadReg r s
  | .writeStatus _ => .next (s.answer .nothing)
  | .reset => .next (State.resetUnder s.cfg s.host)

/-- The next step: none under a configuration that fails its checks (R232); idle, the state held, when
the host has nothing to do (60_exceptions R226, R231); else the host's next action. -/
def nextStep (s : State) : Host.Outcome State Fault Refusal :=
  if configValid s.cfg then
    match s.host with
    | [] => .next s
    | a :: rest => hostStep a (s.withHost rest)
  else .refused .badConfiguration

/-- The host issues the word next (log 6, log 21). -/
def issueNext (s : State) (w : CommandWord) : State := s.withHost (.command w :: s.host)

end Sys2Proof.Machine
end

