-- ==== Sys2Proof/Machine/Step.lean ====
section
/-! DEFINITION. One step of the machine, and how the host places the next command. -/

namespace Sys2Proof.Machine

/-- One step: the host's next action (20_memory R61). -/
def step (s : State) : Host.Outcome State Fault Refusal := nextStep s

/-- The state with the command of bits `w` as the host's next action (30_encoding R70; log 6, log 21). -/
def State.withFetchWord (s : State) (nbits w : Nat) : State := issueNext s (tableWord nbits w)

end Sys2Proof.Machine
end

