-- ==== Sys2Proof/Machine/Pseudo.lean ====
section
/-! DEFINITION. The pseudo-instructions of 30_encoding R81, each the list of host actions it stands
for, and the two halves of the statistics fetch that issue commands (70_reset_and_hazards R239).
`c` is the endpoint's Ciphered flag, chosen by the host (R238). -/

namespace Sys2Proof.Machine

/-- Issue the word of a command. -/
def issue (i : Instr) : HostAction := .command (encode i)

/-- `SREAD c`: XFORM or XFORM.C. -/
def sread (c : Bool) : List HostAction := [issue (.xform c)]

/-- `SWRITE c`: FRAME.P or FRAME.P.C. -/
def swrite (c : Bool) : List HostAction := [issue (.frame c true false)]

/-- `SWRITE_NOKEY c`: FRAME or FRAME.C. -/
def swriteNoKey (c : Bool) : List HostAction := [issue (.frame c false false)]

/-- `HEARTBEAT`: KEEPALIVE; MOV; FRAME.P.C. -/
def heartbeat : List HostAction := [issue .keepalive, issue .mov, issue (.frame true true false)]

/-- `BREW c`: ENCPR; MOV; FRAME.A or FRAME.A.C (45_product_encode R184). -/
def brew (c : Bool) : List HostAction := [issue .encpr, issue .mov, issue (.frame c false true)]

/-- `STATS_REQ m c`: STSEL m; MOV; FRAME.P or FRAME.P.C. -/
def statsReq (m : StatsKind) (c : Bool) : List HostAction :=
  [issue (.stsel m), issue .mov, issue (.frame c true false)]

/-- `LOCKCMD l c`: BARISTA l; MOV; FRAME.P or FRAME.P.C. -/
def lockCmd (l : LockAction) (c : Bool) : List HostAction :=
  [issue (.barista l), issue .mov, issue (.frame c true false)]

/-- The check of the statistics read-back: LOAD it, SREAD c, MOV, STCHK (R239 step 3). -/
def statsCheck (readBack : List Byte) (c : Bool) : List HostAction :=
  .load readBack :: (sread c ++ [issue .mov, issue .stchk])

/-- The statistics data: LOAD it, SREAD c, MOV, DECSTAT (R239 step 5). -/
def statsData (data : List Byte) (c : Bool) : List HostAction :=
  .load data :: (sread c ++ [issue .mov, issue .decstat])

end Sys2Proof.Machine
end

