-- ==== Sys2Proof/Safety.lean ====
section
/-! DEFINITION. The terms claims use: what a buffer holds, the invariant of the machine, what a host may
read, what it must keep to, what is observed at the end of a run, and when two states differ only
in what 10_state R39 and R41 leave unspecified. -/

namespace Sys2Proof.Machine

/-- A buffer of capacity `cap` and length `n` holds the bytes `b` below its length. -/
abbrev Holds (cap : Nat) (m : Memory) (n : Nat) (b : List Byte) : Prop :=
  n = b.length ∧ b.length ≤ cap ∧ ∀ j (h : j < b.length), m.read j = some b[j]

/-- IN[0..IN_LEN-1] is `b` (10_state R22). -/
abbrev InHolds (s : State) (b : List Byte) : Prop := Holds s.cfg.bufBytes s.inBuf s.inLen b

/-- OUT[0..OUT_LEN-1] is `b` (10_state R23). -/
abbrev OutHolds (s : State) (b : List Byte) : Prop := Holds s.cfg.bufBytes s.outBuf s.outLen b

/-- A buffer is in order: canonical, every index below the capacity, the length at most the capacity,
and every byte below the length holds a value (10_state R22, R23; 20_memory R50, R51). -/
structure BufferOk (cap : Nat) (m : Memory) (n : Nat) : Prop where
  form  : m.wf
  range : ∀ c ∈ m, c.1 < cap
  len   : n ≤ cap
  held  : ∀ j, j < n → (m.read j).isSome = true

/-- What the identity record keeps while ID_V = 1 (41_identity R122, R123). -/
structure IdentityOk (l : IdLayout) (r : IdentityRecord) : Prop where
  date1 : r.date1Y = dateYear r.date1Raw ∧ r.date1M = dateMonth r.date1Raw ∧ r.date1D = dateDay r.date1Raw
  date2 : r.date2Y = dateYear r.date2Raw ∧ r.date2M = dateMonth r.date2Raw ∧ r.date2D = dateDay r.date2Raw
  ver1On  : r.p1 = true → r.ver1.length = r.ver1Len ∧ r.ver1Len ≤ l.ver1Width
  ver1Off : r.p1 = false → r.ver1Len = 0
  ver2On  : r.p2 = true → r.ver2.length = r.ver2Len ∧ r.ver2Len ≤ l.ver2Width
  ver2Off : r.p2 = false → r.ver2Len = 0
  tabletOn  : r.p3 = true → r.tablet < 256 ^ r.tabletLen ∧ r.tabletLen ≤ l.tabletWidth
  tabletOff : r.p3 = false → r.tabletLen = 0

/-- The invariant every step keeps. -/
structure EngineInv (s : State) : Prop where
  config     : configValid s.cfg = true
  inOk       : BufferOk s.cfg.bufBytes s.inBuf s.inLen
  outOk      : BufferOk s.cfg.bufBytes s.outBuf s.outLen
  faultKept  : isFault s.status.err = true → s.status.sticky = true
  identityOk : s.status.idV = true → IdentityOk s.cfg.idLayout s.identity
  alertsOk   : s.status.stV = true → s.alerts.alert = s.alerts.raw &&& s.cfg.knownMask
  progressOk : s.status.prV = true → (s.progress.valid = true ↔ s.progress.flagRaw = 0x00#8)
  cntSize    : s.statistics.cnt.length = cntMax s.cfg
  cntCount   : s.status.cntV = true → s.statistics.cntN ≤ cntMax s.cfg

/-- `k` steps of the machine, stopping at the first fault or refusal. -/
def run (k : Nat) (s : State) : Host.Outcome State Fault Refusal :=
  match k with
  | 0 => .next s
  | n + 1 =>
    match step s with
    | .next t => run n t
    | .fault f => .fault f
    | .refused r => .refused r

/-- STATUS of a command with opcode `op` that ends in OK: ERR and LAST_OP are written, the rest keeps
its value (10_state R31). -/
def okStatus (st : Status) (op : Byte) : Status := { st with err := .ok, lastOp := op }

/-- STATUS of a command with opcode `op` that ends in the fault `e`: STICKY is set too (10_state R27). -/
def faultStatus (st : Status) (e : Err) (op : Byte) : Status :=
  { st with err := e, sticky := true, lastOp := op }

/-- The words of 30_encoding R76, by the numbers of R72 and R79: OP is w / 256, ARG is w mod 256. -/
def illegalWord (w : CommandWord) : Bool :=
  let op := w.toNat / 256
  let arg := w.toNat % 256
  (decide (op ∈ [0x00, 0x02, 0x03, 0x20, 0x21, 0x22, 0x23, 0x24, 0x30, 0x33]) && decide (arg ≠ 0))
    || (decide (op ∈ [0x10, 0x31, 0x32]) && decide (2 ≤ arg))
    || (decide (op = 0x11) && decide (6 ≤ arg))
    || decide (op ∉ [0x00, 0x01, 0x02, 0x03, 0x10, 0x11, 0x20, 0x21, 0x22, 0x23, 0x24, 0x30, 0x31,
        0x32, 0x33])

/-- The bytes `b` stand in the buffer from index 0 on. -/
def Stored (m : Memory) (b : List Byte) : Prop := ∀ j (h : j < b.length), m.read j = some b[j]

/-- `t` is `s` after a producer with opcode `op` that wrote `b`: OUT, OUT_LEN and STATUS changed,
nothing else; OUT below OUT_LEN is `b` (20_memory R53). -/
def Produced (s t : State) (op : Byte) (b : List Byte) : Prop :=
  t = { s with outBuf := t.outBuf, outLen := b.length, status := okStatus s.status op }
    ∧ Stored t.outBuf b

/-- The same for a producer that ran the transform, which leaves the hidden CTR as it likes
(10_state R32). -/
def ProducedByTransform (s t : State) (op : Byte) (b : List Byte) : Prop :=
  t = { s with outBuf := t.outBuf, outLen := b.length, ctr := t.ctr, status := okStatus s.status op }
    ∧ Stored t.outBuf b

/-- The 16-bit value `v` stands little-endian at index `j` (20_memory R55). -/
def LittleEndianAt (b : List Byte) (j : Nat) (v : BitVec 16) : Prop :=
  ∃ lo hi, b[j]? = some lo ∧ b[j + 1]? = some hi ∧ v.toNat = lo.toNat + 256 * hi.toNat

/-- Year, month and day of the packed date `v`, as numbers (41_identity R122). -/
def DateOf (v : BitVec 16) (y : BitVec 12) (m : BitVec 5) (d : BitVec 6) : Prop :=
  y.toNat = 1990 + v.toNat / 512 ∧ m.toNat = 1 + v.toNat / 32 % 16 ∧ d.toNat = 1 + v.toNat % 32

/-- No command since reset ended with a fault code: the premise of 60_exceptions R228. -/
def NoFaultSinceReset (s : State) : Prop := s.status.sticky = false

/-- What the host may read as a value: STATUS, OUT_LEN, OUT below OUT_LEN, and a record register while
its record is valid and the field present (10_state R28, R34, R37, R40). -/
def meaningful (r : HostReg) (s : State) : Bool :=
  match r with
  | .status => true
  | .outLen => true
  | .outByte j => decide (j < s.outLen)
  | .idKey => s.status.idV
  | .idFw1 => s.status.idV
  | .idFw2 => s.status.idV
  | .idArticle => s.status.idV
  | .idMachine => s.status.idV
  | .idSerial => s.status.idV
  | .idDate1Raw => s.status.idV
  | .idDate1Y => s.status.idV
  | .idDate1M => s.status.idV
  | .idDate1D => s.status.idV
  | .idDate2Raw => s.status.idV
  | .idDate2Y => s.status.idV
  | .idDate2M => s.status.idV
  | .idDate2D => s.status.idV
  | .idStatusBits => s.status.idV
  | .idP1 => s.status.idV
  | .idP2 => s.status.idV
  | .idP3 => s.status.idV
  | .idVer1 => s.status.idV && s.identity.p1
  | .idVer1Len => s.status.idV
  | .idVer2 => s.status.idV && s.identity.p2
  | .idVer2Len => s.status.idV
  | .idTablet => s.status.idV && s.identity.p3
  | .idTabletLen => s.status.idV
  | .alertRaw => s.status.stV
  | .alert => s.status.stV
  | .prState => s.status.prV
  | .prProduct => s.status.prV
  | .prStrengthCur => s.status.prV
  | .prStrengthMax => s.status.prV
  | .prWaterCur => s.status.prV
  | .prWaterMax => s.status.prV
  | .prMilkTimeCur => s.status.prV
  | .prMilkTimeMax => s.status.prV
  | .prFoamCur => s.status.prV
  | .prFoamMax => s.status.prV
  | .prTempMax => s.status.prV
  | .prPauseMax => s.status.prV
  | .prIntake => s.status.prV
  | .prFlagRaw => s.status.prV
  | .prValid => s.status.prV
  | .cntN => s.status.cntV
  | .cnt m => s.status.cntV && decide (m < s.statistics.cntN)
  | .key => false
  | .inByte _ => false
  | .inLen => false
  | .ctr => false

/-- `v` is the value of the register: what 70_reset_and_hazards R246 gives the host back for a register
read, written out per register of 10_state R25, R23 and R34 to R37, as a number, or as its bytes for a
version string (log 7).  KEY, IN, IN_LEN and CTR give none (R40). -/
def RegisterGives (r : HostReg) (s : State) (v : Reply) : Prop :=
  match r with
  | .status => v = .value (statusWord s.status).toNat
  | .outLen => v = .value s.outLen
  | .outByte j => ∃ x, s.outBuf.read j = some x ∧ v = .value x.toNat
  | .idKey => v = .value s.identity.key.toNat
  | .idFw1 => v = .value s.identity.fw1.toNat
  | .idFw2 => v = .value s.identity.fw2.toNat
  | .idArticle => v = .value s.identity.article.toNat
  | .idMachine => v = .value s.identity.machine.toNat
  | .idSerial => v = .value s.identity.serial.toNat
  | .idDate1Raw => v = .value s.identity.date1Raw.toNat
  | .idDate1Y => v = .value s.identity.date1Y.toNat
  | .idDate1M => v = .value s.identity.date1M.toNat
  | .idDate1D => v = .value s.identity.date1D.toNat
  | .idDate2Raw => v = .value s.identity.date2Raw.toNat
  | .idDate2Y => v = .value s.identity.date2Y.toNat
  | .idDate2M => v = .value s.identity.date2M.toNat
  | .idDate2D => v = .value s.identity.date2D.toNat
  | .idStatusBits => v = .value s.identity.statusBits.toNat
  | .idP1 => v = .value s.identity.p1.toNat
  | .idP2 => v = .value s.identity.p2.toNat
  | .idP3 => v = .value s.identity.p3.toNat
  | .idVer1 => v = .bytes s.identity.ver1
  | .idVer1Len => v = .value s.identity.ver1Len
  | .idVer2 => v = .bytes s.identity.ver2
  | .idVer2Len => v = .value s.identity.ver2Len
  | .idTablet => v = .value s.identity.tablet
  | .idTabletLen => v = .value s.identity.tabletLen
  | .alertRaw => v = .value s.alerts.raw.toNat
  | .alert => v = .value s.alerts.alert.toNat
  | .prState => v = .value s.progress.state.toNat
  | .prProduct => v = .value s.progress.product.toNat
  | .prStrengthCur => v = .value s.progress.strengthCur.toNat
  | .prStrengthMax => v = .value s.progress.strengthMax.toNat
  | .prWaterCur => v = .value s.progress.waterCur.toNat
  | .prWaterMax => v = .value s.progress.waterMax.toNat
  | .prMilkTimeCur => v = .value s.progress.milkTimeCur.toNat
  | .prMilkTimeMax => v = .value s.progress.milkTimeMax.toNat
  | .prFoamCur => v = .value s.progress.foamCur.toNat
  | .prFoamMax => v = .value s.progress.foamMax.toNat
  | .prTempMax => v = .value s.progress.tempMax.toNat
  | .prPauseMax => v = .value s.progress.pauseMax.toNat
  | .prIntake => v = .value s.progress.intake.toNat
  | .prFlagRaw => v = .value s.progress.flagRaw.toNat
  | .prValid => v = .value s.progress.valid.toNat
  | .cntN => v = .value s.statistics.cntN
  | .cnt m => ∃ x, s.statistics.cnt[m]? = some x ∧ v = .value x.toNat
  | .key => False
  | .inByte _ => False
  | .inLen => False
  | .ctr => False

/-- The duties of the host that a state can show, for its next action: a LOAD fits, a register read is
meaningful (70_reset_and_hazards R246, R235). -/
def HostDuty (s : State) : Prop :=
  match s.host with
  | .load bytes :: _ => bytes.length ≤ s.cfg.bufBytes
  | .readReg r :: _ => meaningful r s = true
  | _ => True

/-- The identity record with the value registers of absent fields left out. -/
def presentIdentity (r : IdentityRecord) : IdentityRecord :=
  { r with
    ver1 := if r.p1 then r.ver1 else []
    ver2 := if r.p2 then r.ver2 else []
    tablet := if r.p3 then r.tablet else 0 }

/-- The statistics record with the entries at or above CNT_N left out. -/
def presentCounters (r : StatisticsRecord) : List (BitVec 24) := r.cnt.take r.cntN

/-- What is observed at the end of a run: ERR, STICKY, OUT[0..OUT_LEN-1] and the valid records
(70_reset_and_hazards R245). -/
structure Observation where
  err        : Err
  sticky     : Bool
  out        : Option (List Byte)
  identity   : Option IdentityRecord
  alerts     : Option AlertRecord
  progress   : Option ProgressRecord
  statistics : Option (List (BitVec 24))
  deriving DecidableEq, Repr

/-- The observation of a state (R245). -/
def observe (s : State) : Observation :=
  { err := s.status.err
    sticky := s.status.sticky
    out := s.output.toOption
    identity := if s.status.idV then some (presentIdentity s.identity) else none
    alerts := if s.status.stV then some s.alerts else none
    progress := if s.status.prV then some s.progress else none
    statistics := if s.status.cntV then some (presentCounters s.statistics) else none }

/-- Two states agree on everything but what 10_state R39 and R41 call unspecified or not meaningful:
KEY without KEY_V, bytes at or above a length, records without their valid bit, absent fields,
counters at or above CNT_N, and the hidden CTR. -/
structure SameVisible (s t : State) : Prop where
  cfg        : s.cfg = t.cfg
  inLen      : s.inLen = t.inLen
  outLen     : s.outLen = t.outLen
  status     : s.status = t.status
  host       : s.host = t.host
  reply      : s.reply = t.reply
  key        : s.status.keyV = true → s.key = t.key
  inBytes    : ∀ j, j < s.inLen → s.inBuf.read j = t.inBuf.read j
  outBytes   : ∀ j, j < s.outLen → s.outBuf.read j = t.outBuf.read j
  identity   : s.status.idV = true → presentIdentity s.identity = presentIdentity t.identity
  alerts     : s.status.stV = true → s.alerts = t.alerts
  progress   : s.status.prV = true → s.progress = t.progress
  statistics : s.status.cntV = true →
    s.statistics.cntN = t.statistics.cntN ∧ presentCounters s.statistics = presentCounters t.statistics

/-- Two outcomes agree: next states related by `R`, or the same stop. -/
def SameOutcome (R : State → State → Prop) (x y : Host.Outcome State Fault Refusal) : Prop :=
  match x, y with
  | .next s, .next t => R s t
  | .fault f, .fault g => f = g
  | .refused f, .refused g => f = g
  | _, _ => False

end Sys2Proof.Machine
end

