-- ==== Sys2Proof/Certificates/Slice0/Obligations.lean ====
section
/-! DEFINITION. The statements for the provers.  Each is about every state it names, not about a
program or a run from reset. -/

open Sys2Proof Sys2Proof.Machine

/-! ### Encoding -/

/-- 30_encoding R72, R74, R79: a command's word decodes to the command, every operand at every value. -/
def Obligations.DecodeOfEncode : Prop :=
  ∀ i : Instr, WellFormed i = true → decode (encode i) = .ok i

/-- 30_encoding R72, R74, R79: a word decodes to at most the command whose word it is. -/
def Obligations.EncodeOfDecode : Prop :=
  ∀ (w : CommandWord) (i : Instr), decode w = .ok i → WellFormed i = true ∧ encode i = w

/-- The decoder and opcode_table.json say the same of every word: a row covers exactly the words that
decode to its mnemonic. -/
def Obligations.DecodeFollowsOpcodeTable : Prop :=
  ∀ (w : CommandWord) (r : OpcodeRow), r ∈ opcodeTable →
    (r.covers w = true ↔ ∃ i, decode w = .ok i ∧ mnemonic i = r.mnemonic)

/-- 30_encoding R76, R79: the decoder rejects exactly the words the rules call illegal. -/
def Obligations.DecodeRejectsExactlyIllegalWords : Prop :=
  ∀ w : CommandWord, illegalWord w = true ↔ ∃ e, decode w = .error e

/-- 30_encoding R79: 278 words are legal, counted opcode by opcode. -/
def Obligations.LegalWordsAre278 : Prop :=
  ((List.range 256).map fun op =>
    ((List.range 256).filter fun arg => (decodeTableWord 16 (256 * op + arg)).isSome).length).sum = 278

/-- Words written out from 30_encoding R72, at least one of each group of opcodes. -/
def Obligations.SampleWordsDecode : Prop :=
  decode 0x0000#16 = .ok .nop ∧ decode 0x012A#16 = .ok (.setkey 0x2A#8)
    ∧ decode 0x1001#16 = .ok (.xform true) ∧ decode 0x1103#16 = .ok (.frame true true false)
    ∧ decode 0x1104#16 = .ok (.frame false false true) ∧ decode 0x2400#16 = .ok .stchk
    ∧ decode 0x3101#16 = .ok (.stsel .daily) ∧ decode 0x3200#16 = .ok (.barista .unlock)

/-! ### The step -/

/-- 20_memory R61, 30_encoding R70: under a configuration that passes its checks a step is the host's
next action, and when that is a command word that decodes, the step performs the command and gives
back STATUS; a stop of the command is a stop of the step.  That the actions to come stand in
`State.host` is the model's choice (log 6). -/
def Obligations.StepRunsDecodedCommand : Prop :=
  ∀ (s : State) (a : HostAction) (rest : List HostAction),
    configValid s.cfg = true → s.host = a :: rest →
      step s = hostStep a { s with host := rest }
        ∧ ∀ (w : CommandWord) (i : Instr), a = .command w → decode w = .ok i →
          match exec i { s with host := rest } with
          | .next t => step s = .next { t with reply := .status (statusWord t.status) }
          | .fault f => step s = .fault f
          | .refused r => step s = .refused r

/-- 30_encoding R76: an illegal word ends with ERR = ILLEGAL and changes nothing but STATUS, which the
host is given back (70_reset R246). -/
def Obligations.IllegalWordChangesOnlyStatus : Prop :=
  ∀ (s : State) (w : CommandWord), illegalWord w = true →
    hostStep (.command w) s = .next { s with
      status := faultStatus s.status .illegal (w.extractLsb' 8 8)
      reply := .status (statusWord (faultStatus s.status .illegal (w.extractLsb' 8 8))) }

/-- 60_exceptions R226, 70_reset R231: with nothing from the host the engine is idle and holds its
state. -/
def Obligations.IdleHoldsState : Prop :=
  ∀ s : State, configValid s.cfg = true → s.host = [] → step s = .next s

/-- 70_reset R232: no step is taken under a configuration that fails its checks. -/
def Obligations.BadConfigurationRefused : Prop :=
  ∀ s : State, configValid s.cfg = false → step s = .refused .badConfiguration

/-! ### Reset -/

/-- 10_state R39, the values the spec gives, under every configuration: KEY_V, both lengths, STATUS,
CTR, the valid bits, and the tables as configured.  Last, what the model takes as its reset state: the
reset configuration (log 2) and an empty queue of host actions (log 6), both the model's choice. -/
def Obligations.ResetValues : Prop :=
  (∀ (c : Config) (h : List HostAction),
    (State.resetUnder c h).status.keyV = false ∧ (State.resetUnder c h).inLen = 0
      ∧ (State.resetUnder c h).outLen = 0
      ∧ statusWord (State.resetUnder c h).status = 0x00000000#32
      ∧ (State.resetUnder c h).ctr = 0x00#8
      ∧ (State.resetUnder c h).status.idV = false ∧ (State.resetUnder c h).status.stV = false
      ∧ (State.resetUnder c h).status.prV = false ∧ (State.resetUnder c h).status.cntV = false
      ∧ (State.resetUnder c h).cfg.t1 = c.t1 ∧ (State.resetUnder c h).cfg.t2 = c.t2)
    ∧ State.reset = State.resetUnder resetConfig []

/-- 70_reset R230, R232: a reset by the host sets what the spec gives a value, and leaves the
configuration and what the host has still to do. -/
def Obligations.ResetStep : Prop :=
  ∀ s : State, ∃ t, hostStep .reset s = .next t ∧ t.cfg = s.cfg ∧ t.host = s.host
    ∧ t.status.keyV = false ∧ t.inLen = 0 ∧ t.outLen = 0 ∧ statusWord t.status = 0x00000000#32
    ∧ t.ctr = 0x00#8

/-- The invariant holds at reset. -/
def Obligations.ResetMeetsInvariant : Prop := EngineInv State.reset

/-- Every step keeps the invariant: buffers canonical and inside their capacity with every byte below
the length held, STICKY over every fault code, valid records in their form, the configuration valid. -/
def Obligations.StepKeepsInvariant : Prop :=
  ∀ s t : State, EngineInv s → step s = .next t → EngineInv t

/-- The configuration is fixed for the whole run (10_state R20): no step changes it. -/
def Obligations.StepKeepsConfiguration : Prop :=
  ∀ s t : State, step s = .next t → t.cfg = s.cfg

/-! ### STATUS and the rules over all commands -/

/-- 10_state R25, R26: where each field of STATUS stands, that the reserved bits read 0, and the codes
of ERR. -/
def Obligations.StatusWordFields : Prop :=
  (∀ st : Status,
    (statusWord st).extractLsb' 0 4 = errCode st.err ∧ (statusWord st).getLsbD 4 = st.sticky
      ∧ (statusWord st).extractLsb' 5 3 = 0#3 ∧ (statusWord st).getLsbD 8 = st.idV
      ∧ (statusWord st).getLsbD 9 = st.stV ∧ (statusWord st).getLsbD 10 = st.prV
      ∧ (statusWord st).getLsbD 11 = st.cntV ∧ (statusWord st).getLsbD 12 = st.keyV
      ∧ (statusWord st).getLsbD 13 = st.sa ∧ (statusWord st).extractLsb' 14 2 = 0#2
      ∧ (statusWord st).extractLsb' 16 8 = st.lastOp ∧ (statusWord st).extractLsb' 24 8 = 0#8)
    ∧ errCode .ok = 0#4 ∧ errCode .decode = 1#4 ∧ errCode .statsUnavailable = 2#4
    ∧ errCode .config = 3#4 ∧ errCode .illegal = 4#4 ∧ errCode .overflow = 5#4 ∧ errCode .nokey = 6#4

/-- 10_state R30: LAST_OP is bits [15:8] of the command word, however the command ends; an illegal
word's too. -/
def Obligations.LastOpIsOpcode : Prop :=
  ∀ (s t : State) (w : CommandWord),
    hostStep (.command w) s = .next t → t.status.lastOp = w.extractLsb' 8 8

/-- 10_state R27: a command sets STICKY when it ends with a fault code, STATS_UNAVAILABLE not among
them, and never clears it; nothing but reset does. -/
def Obligations.StickyOverFaultCodes : Prop :=
  ∀ s t : State,
    (∀ w, hostStep (.command w) s = .next t →
      (t.status.sticky = true ↔ s.status.sticky = true
        ∨ t.status.err ∈ [Err.decode, Err.config, Err.illegal, Err.overflow, Err.nokey]))
    ∧ (∀ a, a ≠ .reset → hostStep a s = .next t → s.status.sticky = true → t.status.sticky = true)
    ∧ (hostStep .reset s = .next t → t.status.sticky = false)

/-- 10_state R28, R29: each valid bit, and SA, is written by its own command alone. -/
def Obligations.ValidBitsHaveOneWriter : Prop :=
  ∀ (i : Instr) (s t : State), exec i s = .next t →
    (i ≠ .decid → t.status.idV = s.status.idV) ∧ (i ≠ .decst → t.status.stV = s.status.stV)
      ∧ (i ≠ .decpr → t.status.prV = s.status.prV) ∧ (i ≠ .decstat → t.status.cntV = s.status.cntV)
      ∧ (i ≠ .stchk → t.status.sa = s.status.sa)

/-- 10_state R28: a decoder sets its record's valid bit to 1 when it succeeds and to 0 when it fails. -/
def Obligations.DecodersSetTheirBit : Prop :=
  ∀ (s t : State),
    (exec .decid s = .next t → t.status.idV = decide (t.status.err = .ok))
      ∧ (exec .decst s = .next t → t.status.stV = decide (t.status.err = .ok))
      ∧ (exec .decpr s = .next t → t.status.prV = decide (t.status.err = .ok))
      ∧ (exec .decstat s = .next t → t.status.cntV = decide (t.status.err = .ok))

/-- 10_state R21: KEY and KEY_V are written by SETKEY and KEYID only. -/
def Obligations.KeyHasTwoWriters : Prop :=
  ∀ (i : Instr) (s t : State), exec i s = .next t → (∀ k, i ≠ .setkey k) → i ≠ .keyid →
    t.key = s.key ∧ t.status.keyV = s.status.keyV

/-- 30_encoding R73: what a command does not list as written is unchanged: IN but by MOV, OUT but by
the producers, each record but by its decoder, CTR but by the transform; and never what is not the
engine's. -/
def Obligations.CommandsWriteOnlyTheirOwn : Prop :=
  ∀ (i : Instr) (s t : State), exec i s = .next t →
    t.cfg = s.cfg ∧ t.host = s.host ∧ t.reply = s.reply
      ∧ (i ≠ .mov → t.inBuf = s.inBuf ∧ t.inLen = s.inLen)
      ∧ ((∀ c, i ≠ .xform c) → (∀ c p a, i ≠ .frame c p a) → i ≠ .encpr → (∀ m, i ≠ .stsel m) →
          (∀ l, i ≠ .barista l) → i ≠ .keepalive → t.outBuf = s.outBuf ∧ t.outLen = s.outLen)
      ∧ (i ≠ .decid → t.identity = s.identity) ∧ (i ≠ .decst → t.alerts = s.alerts)
      ∧ (i ≠ .decpr → t.progress = s.progress) ∧ (i ≠ .decstat → t.statistics = s.statistics)
      ∧ (i ≠ .xform true → (∀ p a, i ≠ .frame true p a) → t.ctr = s.ctr)

/-- The frame of the stores (00_scope R11 `MemWrite`): a command, and a LOAD, writes a buffer at indices
0 .. length - 1, so every byte at or above the length it leaves reads as before.  20_memory R53 calls
those bytes not meaningful; that they keep what they held is the model's choice (log 10). -/
def Obligations.StoresKeepOtherBytes : Prop :=
  (∀ (i : Instr) (s t : State), exec i s = .next t →
    ∀ a, (t.inLen ≤ a → t.inBuf.read a = s.inBuf.read a)
      ∧ (t.outLen ≤ a → t.outBuf.read a = s.outBuf.read a))
  ∧ ∀ (b : List Byte) (s t : State), hostStep (.load b) s = .next t →
    ∀ a, b.length ≤ a → t.inBuf.read a = s.inBuf.read a

/-- 60_exceptions R213: a command that ends with any ERR other than OK writes no result; of STATUS it
writes ERR, STICKY, LAST_OP and its own bit, which it clears. -/
def Obligations.FailureWritesNoResult : Prop :=
  ∀ (i : Instr) (s t : State), exec i s = .next t → t.status.err ≠ .ok →
    t = { s with status := { s.status with
            err := t.status.err
            sticky := t.status.sticky
            lastOp := t.status.lastOp
            idV := s.status.idV && decide (i ≠ .decid)
            prV := s.status.prV && decide (i ≠ .decpr)
            sa := s.status.sa && decide (i ≠ .stchk) } }

/-- 20_memory R60, 60_exceptions R221: every command is always permitted: in every state of the
invariant each command ends in a next state. -/
def Obligations.EveryCommandCompletes : Prop :=
  ∀ (i : Instr) (s : State), EngineInv s → ∃ t, exec i s = .next t

/-! ### Control commands -/

/-- 46_framing_and_control R190: NOP writes ERR = OK and LAST_OP = 0x00 and nothing else. -/
def Obligations.NopResult : Prop :=
  ∀ s : State, exec .nop s = .next { s with status := okStatus s.status 0x00#8 }

/-- 46_framing_and_control R191: SETKEY writes KEY, KEY_V = 1, ERR = OK and LAST_OP = 0x01. -/
def Obligations.SetkeyResult : Prop :=
  ∀ (s : State) (k : Byte),
    exec (.setkey k) s =
      .next { s with key := k, status := { okStatus s.status 0x01#8 with keyV := true } }

/-- 46_framing_and_control R192: KEYID takes the key field of the identity in IN; too short an IN is
DECODE and leaves KEY and KEY_V; the identity record is untouched in both cases. -/
def Obligations.KeyidResult : Prop :=
  ∀ (s : State) (b : List Byte), InHolds s b →
    if b.length < idMinLen s.cfg.idLayout then
      exec .keyid s = .next { s with status := faultStatus s.status .decode 0x02#8 }
    else
      ∃ k, b[s.cfg.idLayout.key]? = some k ∧
        exec .keyid s =
          .next { s with key := k, status := { okStatus s.status 0x02#8 with keyV := true } }

/-- 46_framing_and_control R193: MOV copies OUT into IN and changes nothing else but STATUS. -/
def Obligations.MovResult : Prop :=
  ∀ (s : State) (b : List Byte), OutHolds s b →
    ∃ t, exec .mov s = .next t
      ∧ t = { s with inBuf := t.inBuf, inLen := b.length, status := okStatus s.status 0x03#8 }
      ∧ Stored t.inBuf b

/-! ### Cipher and framing -/

/-- 40_cipher R101, C = 0: XFORM copies IN to OUT and needs no key. -/
def Obligations.XformCopies : Prop :=
  ∀ (s : State) (b : List Byte), InHolds s b →
    ∃ t, exec (.xform false) s = .next t ∧ Produced s t 0x10#8 b

/-- 40_cipher R101, R103, R105, C = 1: byte j of OUT is the two nibbles of IN[j] at indices 2j and
2j + 1. -/
def Obligations.XformEnciphers : Prop :=
  ∀ (s : State) (b : List Byte), InHolds s b → s.status.keyV = true →
    ∃ t r, exec (.xform true) s = .next t ∧ ProducedByTransform s t 0x10#8 r ∧ r.length = b.length
      ∧ ∀ j (h : j < b.length), ∃ y : Byte, r[j]? = some y
          ∧ y.extractLsb' 4 4 = nib s.cfg (b[j].extractLsb' 4 4) (2 * j)
              (s.key.extractLsb' 4 4) (s.key.extractLsb' 0 4)
          ∧ y.extractLsb' 0 4 = nib s.cfg (b[j].extractLsb' 0 4) (2 * j + 1)
              (s.key.extractLsb' 4 4) (s.key.extractLsb' 0 4)

/-- 60_exceptions R214, 40_cipher R101: XFORM with C = 1 and no key is NOKEY and changes STATUS only. -/
def Obligations.XformWithoutKey : Prop :=
  ∀ s : State, s.status.keyV = false →
    exec (.xform true) s = .next { s with status := faultStatus s.status .nokey 0x10#8 }

/-- 40_cipher R108: for tables that are involutions the transform is its own inverse, for every key
and every byte sequence. -/
def Obligations.TransformIsInvolution : Prop :=
  ∀ (c : Config) (key : Byte) (b : List Byte),
    isInvolution c.t1 = true → isInvolution c.t2 = true →
      transform c key (transform c key b) = b

/-- 40_cipher R109: the transform preserves length. -/
def Obligations.TransformKeepsLength : Prop :=
  ∀ (c : Config) (key : Byte) (b : List Byte), (transform c key b).length = b.length

/-- 40_cipher R106: `nib` depends on i only through i mod 256, and byte j of a transform on j only
through j mod 128. -/
def Obligations.TransformPeriod : Prop :=
  (∀ (c : Config) (n : Nibble) (i : Nat) (kh kl : Nibble),
      nib c n i kh kl = nib c n (i % 256) kh kl)
    ∧ ∀ (c : Config) (key : Byte) (j : Nat) (x : Byte),
        transformByte c key j x = transformByte c key (j % 128) x

/-- 40_cipher R112: the datapath of 4-bit adders with the 8-bit wrapping CTR computes the transform of
R104 for every input, and its CTR has stepped once for each nibble. -/
def Obligations.DatapathComputesTransform : Prop :=
  ∀ (c : Config) (key : Byte) (b : List Byte),
    datapath c key 0x00#8 b = (transform c key b, BitVec.ofNat 8 (2 * b.length))

/-- 40_cipher R110: with the default tables no nibble is mapped to itself. -/
def Obligations.DefaultTablesMoveEveryNibble : Prop :=
  ∀ (c : Config) (n : Nibble) (i : Nat) (kh kl : Nibble),
    c.t1 = defaultT1 → c.t2 = defaultT2 → nib c n i kh kl ≠ n

/-- 95_test_vectors S1: XFORM.C; MOV; XFORM.C gives the original IN in OUT, under every key and every
configuration a model accepts. -/
def Obligations.EncipherTwiceRestores : Prop :=
  ∀ (s : State) (b : List Byte), configValid s.cfg = true → InHolds s b → s.status.keyV = true →
    s.host = [issue (.xform true), issue .mov, issue (.xform true)] →
      ∃ t, run 3 s = .next t ∧ OutHolds t b ∧ t.host = []

/-- 46_framing_and_control R194, R197: FRAME puts the key first (P), last (A) or nowhere, then applies
the transform to the whole (C), when the key it needs is there and the framed length fits. -/
def Obligations.FrameResult : Prop :=
  ∀ (s : State) (b : List Byte) (c p a : Bool), InHolds s b → (p && a) = false →
    ((c || p || a) = true → s.status.keyV = true) →
    b.length + p.toNat + a.toNat ≤ s.cfg.bufBytes →
      let framed := (if p then [s.key] else []) ++ b ++ (if a then [s.key] else [])
      ∃ t, exec (.frame c p a) s = .next t
        ∧ (if c then ProducedByTransform s t 0x11#8 (transform s.cfg s.key framed)
           else Produced s t 0x11#8 framed)

/-- 46_framing_and_control R194, 60_exceptions R214, R215: FRAME with P = A = 1 is ILLEGAL before all
else, then a missing key is NOKEY, then a framed length above BUF_BYTES is OVERFLOW; STATUS is all
that changes. -/
def Obligations.FrameFaultsInOrder : Prop :=
  ∀ (s : State) (c p a : Bool),
    ((p && a) = true →
      exec (.frame c p a) s = .next { s with status := faultStatus s.status .illegal 0x11#8 })
    ∧ ((p && a) = false → (c || p || a) = true → s.status.keyV = false →
      exec (.frame c p a) s = .next { s with status := faultStatus s.status .nokey 0x11#8 })
    ∧ ((p && a) = false → ((c || p || a) = true → s.status.keyV = true) →
      s.cfg.bufBytes < s.inLen + p.toNat + a.toNat →
      exec (.frame c p a) s = .next { s with status := faultStatus s.status .overflow 0x11#8 })

/-! ### Decoders -/

/-- 41_identity R124, R125, 20_memory R55: DECID reads each mandatory field at its configured offset,
one byte or two little-endian, decodes both dates, sets ID_V, and changes nothing but the identity
record and STATUS. -/
def Obligations.DecidMandatoryFields : Prop :=
  ∀ (s : State) (b : List Byte), InHolds s b → idMinLen s.cfg.idLayout ≤ b.length →
    ∃ t, exec .decid s = .next t
      ∧ t = { s with identity := t.identity, status := { okStatus s.status 0x20#8 with idV := true } }
      ∧ b[s.cfg.idLayout.key]? = some t.identity.key
      ∧ b[s.cfg.idLayout.fw1]? = some t.identity.fw1
      ∧ b[s.cfg.idLayout.fw2]? = some t.identity.fw2
      ∧ LittleEndianAt b s.cfg.idLayout.article t.identity.article
      ∧ LittleEndianAt b s.cfg.idLayout.machine t.identity.machine
      ∧ LittleEndianAt b s.cfg.idLayout.serial t.identity.serial
      ∧ LittleEndianAt b s.cfg.idLayout.date1 t.identity.date1Raw
      ∧ LittleEndianAt b s.cfg.idLayout.date2 t.identity.date2Raw
      ∧ b[s.cfg.idLayout.statusBits]? = some t.identity.statusBits
      ∧ DateOf t.identity.date1Raw t.identity.date1Y t.identity.date1M t.identity.date1D
      ∧ DateOf t.identity.date2Raw t.identity.date2Y t.identity.date2M t.identity.date2D

/-- 41_identity R123: an optional field is present iff IN_LEN is above its threshold; it takes the
bytes of its width from its start that exist; absent, its length is 0.  That the tablet id of a layout
of another width than 4 bytes is the whole little-endian number is the model's (log 14). -/
def Obligations.DecidOptionalFields : Prop :=
  ∀ (s : State) (b : List Byte), InHolds s b → idMinLen s.cfg.idLayout ≤ b.length →
    ∃ t, exec .decid s = .next t
      ∧ (if 27 < b.length then t.identity.p1 = true
            ∧ t.identity.ver1Len = min s.cfg.idLayout.ver1Width (b.length - s.cfg.idLayout.ver1Start)
            ∧ t.identity.ver1 = (b.drop s.cfg.idLayout.ver1Start).take t.identity.ver1Len
          else t.identity.p1 = false ∧ t.identity.ver1Len = 0)
      ∧ (if 35 < b.length then t.identity.p2 = true
            ∧ t.identity.ver2Len = min s.cfg.idLayout.ver2Width (b.length - s.cfg.idLayout.ver2Start)
            ∧ t.identity.ver2 = (b.drop s.cfg.idLayout.ver2Start).take t.identity.ver2Len
          else t.identity.p2 = false ∧ t.identity.ver2Len = 0)
      ∧ (if 51 < b.length then t.identity.p3 = true
            ∧ t.identity.tabletLen
                = min s.cfg.idLayout.tabletWidth (b.length - s.cfg.idLayout.tabletStart)
            ∧ t.identity.tablet = ((b.drop s.cfg.idLayout.tabletStart).take t.identity.tabletLen).foldr
                (fun x n => x.toNat + 256 * n) 0
          else t.identity.p3 = false ∧ t.identity.tabletLen = 0)

/-- 42_status_bitmap R141 to R144: DECST accepts every length; bit index j is bit 7 - (j mod 8) of byte
1 + j / 8, 0 where there is no such byte; ALERT is ALERT_RAW under the mask. -/
def Obligations.DecstResult : Prop :=
  ∀ (s : State) (b : List Byte), InHolds s b →
    ∃ t, exec .decst s = .next t
      ∧ t = { s with alerts := t.alerts, status := { okStatus s.status 0x21#8 with stV := true } }
      ∧ (∀ j, j < 64 → t.alerts.raw.getLsbD j =
          match b[1 + j / 8]? with
          | some x => x.getLsbD (7 - j % 8)
          | none => false)
      ∧ t.alerts.alert = t.alerts.raw &&& s.cfg.knownMask

/-- 43_brew_progress R152 to R157: DECPR reads each register at IN[1 + o] for its body offset o, and
PR_VALID is 1 iff the flag byte is 0. -/
def Obligations.DecprResult : Prop :=
  ∀ (s : State) (b : List Byte), InHolds s b → prMinLen s.cfg.progLayout ≤ b.length →
    ∃ t, exec .decpr s = .next t
      ∧ t = { s with progress := t.progress, status := { okStatus s.status 0x22#8 with prV := true } }
      ∧ b[1]? = some t.progress.state ∧ b[2]? = some t.progress.product
      ∧ b[1 + s.cfg.progLayout.strengthCur]? = some t.progress.strengthCur
      ∧ b[1 + s.cfg.progLayout.strengthMax]? = some t.progress.strengthMax
      ∧ b[1 + s.cfg.progLayout.waterCur]? = some t.progress.waterCur
      ∧ b[1 + s.cfg.progLayout.waterMax]? = some t.progress.waterMax
      ∧ b[1 + s.cfg.progLayout.milkTimeCur]? = some t.progress.milkTimeCur
      ∧ b[1 + s.cfg.progLayout.milkTimeMax]? = some t.progress.milkTimeMax
      ∧ b[1 + s.cfg.progLayout.foamCur]? = some t.progress.foamCur
      ∧ b[1 + s.cfg.progLayout.foamMax]? = some t.progress.foamMax
      ∧ b[1 + s.cfg.progLayout.tempMax]? = some t.progress.tempMax
      ∧ b[1 + s.cfg.progLayout.pauseMax]? = some t.progress.pauseMax
      ∧ b[1 + s.cfg.progLayout.flagRaw]? = some t.progress.flagRaw
      ∧ b[1 + s.cfg.progLayout.intake]? = some t.progress.intake
      ∧ (t.progress.valid = true ↔ t.progress.flagRaw = 0x00#8)

/-- 41_identity R124, 43_brew_progress R153, R157: DECID and DECPR on an IN shorter than their minimum
length are DECODE; the command's own valid bit is cleared and no record register changes. -/
def Obligations.ShortRecordsAreDecodeErrors : Prop :=
  ∀ s : State,
    (s.inLen < idMinLen s.cfg.idLayout →
      exec .decid s =
        .next { s with status := { faultStatus s.status .decode 0x20#8 with idV := false } })
    ∧ (s.inLen < prMinLen s.cfg.progLayout →
      exec .decpr s =
        .next { s with status := { faultStatus s.status .decode 0x22#8 with prV := false } })

/-- 43_brew_progress R157: under every layout a model accepts, the JBLE §8 payload gives its stated
result. -/
def Obligations.JbleProgressVectorDecodes : Prop :=
  ∀ s : State, configValid s.cfg = true →
    InHolds s [0x2a#8, 0x34#8, 0x04#8, 0x04#8, 0x04#8, 0x00#8, 0x0e#8, 0x01#8, 0x01#8, 0x09#8,
      0x12#8, 0x11#8, 0x00#8, 0x00#8, 0x11#8, 0x00#8, 0x00#8, 0x00#8, 0x00#8, 0x00#8] →
    ∃ t, exec .decpr s = .next t ∧ t.progress.state = 0x34#8
      ∧ t.progress.strengthCur = 4#8 ∧ t.progress.strengthMax = 4#8
      ∧ t.progress.waterCur = 0#8 ∧ t.progress.waterMax = 0x0E#8
      ∧ t.progress.milkTimeCur = 1#8 ∧ t.progress.milkTimeMax = 1#8
      ∧ t.progress.foamCur = 9#8 ∧ t.progress.foamMax = 0x12#8
      ∧ t.progress.tempMax = 0x11#8 ∧ t.progress.pauseMax = 0#8
      ∧ t.progress.intake = 0x11#8 ∧ t.progress.valid = true

/-- 44_statistics R170, R174: DECSTAT accepts every length; counter m is the big-endian value of bytes
3m, 3m + 1, 3m + 2; CNT_N is floor(IN_LEN / 3). -/
def Obligations.DecstatResult : Prop :=
  ∀ (s : State) (b : List Byte), InHolds s b →
    ∃ t, exec .decstat s = .next t
      ∧ t = { s with statistics := t.statistics
                     status := { okStatus s.status 0x23#8 with cntV := true } }
      ∧ t.statistics.cntN = b.length / 3
      ∧ ∀ m, m < b.length / 3 → ∃ x y z c, b[3 * m]? = some x ∧ b[3 * m + 1]? = some y
          ∧ b[3 * m + 2]? = some z ∧ t.statistics.cnt[m]? = some c
          ∧ c.toNat = 65536 * x.toNat + 256 * y.toNat + z.toNat

/-- 44_statistics R172: STCHK on an empty IN is DECODE with SA = 0, on a first byte 0x0E is
STATS_UNAVAILABLE with SA = 0 and STICKY unchanged, on any other is OK with SA = 1. -/
def Obligations.StchkOutcomes : Prop :=
  ∀ (s : State) (b : List Byte), InHolds s b →
    match b with
    | [] => exec .stchk s =
        .next { s with status := { faultStatus s.status .decode 0x24#8 with sa := false } }
    | x :: _ =>
      if x = 0x0E#8 then
        exec .stchk s = .next { s with
          status := { s.status with err := .statsUnavailable, sa := false, lastOp := 0x24#8 } }
      else exec .stchk s = .next { s with status := { okStatus s.status 0x24#8 with sa := true } }

/-! ### Encoders and constant payloads -/

/-- 45_product_encode R180 to R182: ENCPR gives 15 bytes; byte k is the value of the last pair whose
slot is k + 1, else the product code at k = 0 and zero elsewhere. -/
def Obligations.EncprResult : Prop :=
  ∀ (s : State) (code : Byte) (pairs : List (Byte × Byte)),
    InHolds s (code :: pairs.flatMap fun p => [p.1, p.2]) →
    (∀ p ∈ pairs, 1 ≤ p.1.toNat ∧ p.1.toNat ≤ 11) → 15 ≤ s.cfg.bufBytes →
      ∃ t r, exec .encpr s = .next t ∧ Produced s t 0x30#8 r ∧ r.length = 15
        ∧ ∀ k, k < 15 → r[k]? = some
            (((pairs.filter fun p => p.1.toNat == k + 1).getLast?.map Prod.snd).getD
              (if k = 0 then code else 0x00#8))

/-- 45_product_encode R183: a length that is 0 or even, or a slot outside 1..11, is CONFIG, and STATUS
is all that changes. -/
def Obligations.EncprConfigFaults : Prop :=
  (∀ s : State, s.inLen % 2 = 0 →
    exec .encpr s = .next { s with status := faultStatus s.status .config 0x30#8 })
  ∧ ∀ (s : State) (code : Byte) (pairs : List (Byte × Byte)),
      InHolds s (code :: pairs.flatMap fun p => [p.1, p.2]) →
      (∃ p ∈ pairs, p.1.toNat < 1 ∨ 11 < p.1.toNat) →
      exec .encpr s = .next { s with status := faultStatus s.status .config 0x30#8 }

/-- 44_statistics R171, 46_framing_and_control R195, R196: STSEL gives the four selector bytes, BARISTA
the lock byte, KEEPALIVE the two bytes of KA_PAYLOAD, whatever they are configured to. -/
def Obligations.ConstantPayloads : Prop :=
  ∀ s : State, 56 ≤ s.cfg.bufBytes →
    (∀ m : StatsKind, ∃ t, exec (.stsel m) s = .next t
      ∧ Produced s t 0x31#8 (if m = .total then [0x00#8, 0x01#8, 0xFF#8, 0xFF#8]
          else [0x00#8, 0x10#8, 0xFF#8, 0xFF#8]))
    ∧ (∀ l : LockAction, ∃ t, exec (.barista l) s = .next t
      ∧ Produced s t 0x32#8 (if l = .lock then [0x01#8] else [0x00#8]))
    ∧ ∃ t, exec .keepalive s = .next t ∧ Produced s t 0x33#8 [s.cfg.kaFirst, s.cfg.kaSecond]

/-! ### The host -/

/-- 70_reset R240: LOAD writes IN and IN_LEN and nothing else; too long a LOAD has no step. -/
def Obligations.LoadStep : Prop :=
  ∀ (s : State) (b : List Byte),
    if b.length ≤ s.cfg.bufBytes then
      ∃ t, hostStep (.load b) s = .next t
        ∧ t = { s with inBuf := t.inBuf, inLen := b.length, reply := .nothing }
        ∧ Stored t.inBuf b
    else hostStep (.load b) s = .refused .loadTooLong

/-- 70_reset R241: FETCH gives OUT[0..OUT_LEN-1] and changes nothing; register reads change nothing. -/
def Obligations.FetchStep : Prop :=
  ∀ s : State,
    (∀ b : List Byte, OutHolds s b → hostStep .fetch s = .next { s with reply := .bytes b })
    ∧ ∀ (r : HostReg) (t : State), hostStep (.readReg r) s = .next t → t = { s with reply := t.reply }

/-- 10_state R25: a host write to STATUS has no effect. -/
def Obligations.StatusWriteHasNoEffect : Prop :=
  ∀ (s : State) (v : BitVec 32), hostStep (.writeStatus v) s = .next { s with reply := .nothing }

/-- 10_state R28, R40, R41, 20_memory R58, 70_reset R246: a read of a meaningful register gives back that
register's value, written out per register, and changes nothing of the engine; a read of any other is a
fault of the host program. -/
def Obligations.ReadsGiveOnlyMeaningfulValues : Prop :=
  ∀ (s : State) (r : HostReg), EngineInv s →
    if meaningful r s then
      ∃ v, RegisterGives r s v ∧ hostStep (.readReg r) s = .next { s with reply := v }
    else hostStep (.readReg r) s = .fault (.notMeaningful r)
      ∨ hostStep (.readReg r) s = .fault (.notReadable r)

/-- A host that keeps its duties never stops the machine: from every state of the invariant the step
is a next state (70_reset R246). -/
def Obligations.DutifulHostNeverStops : Prop :=
  ∀ s : State, EngineInv s → HostDuty s → ∃ t, step s = .next t ∧ EngineInv t

/-- 10_state R41, 70_reset R245: what the spec calls unspecified or not meaningful never matters: two
states that differ in nothing else step to two such states, or to the same stop. -/
def Obligations.UnspecifiedStateNeverMatters : Prop :=
  ∀ s t : State, SameVisible s t → SameOutcome SameVisible (step s) (step t)

/-- The same over whole runs, and in what is observed at their end (70_reset R245): the values chosen
for unspecified state can never be observed. -/
def Obligations.RunsObserveOnlySpecifiedState : Prop :=
  ∀ (k : Nat) (s t : State), SameVisible s t →
    SameOutcome (fun x y => SameVisible x y ∧ observe x = observe y) (run k s) (run k t)

/-! ### Sequences of commands -/

/-- 30_encoding R81 BREW, 45_product_encode R184: ENCPR; MOV; FRAME.A or FRAME.A.C leaves in OUT the
16 bytes of the product payload with the key last, through the transform when c = 1. -/
def Obligations.BrewSequence : Prop :=
  ∀ (s : State) (code : Byte) (pairs : List (Byte × Byte)) (c : Bool), configValid s.cfg = true →
    InHolds s (code :: pairs.flatMap fun p => [p.1, p.2]) →
    (∀ p ∈ pairs, 1 ≤ p.1.toNat ∧ p.1.toNat ≤ 11) → s.status.keyV = true → s.host = brew c →
      ∃ t payload, run 3 s = .next t ∧ payload.length = 15
        ∧ (∀ k, k < 15 → payload[k]? = some
            (((pairs.filter fun p => p.1.toNat == k + 1).getLast?.map Prod.snd).getD
              (if k = 0 then code else 0x00#8)))
        ∧ OutHolds t (if c then transform s.cfg s.key (payload ++ [s.key]) else payload ++ [s.key])

/-- 30_encoding R81 HEARTBEAT: KEEPALIVE; MOV; FRAME.P.C leaves the three ciphered bytes of the key and
the keepalive payload in OUT. -/
def Obligations.HeartbeatSequence : Prop :=
  ∀ s : State, configValid s.cfg = true → s.status.keyV = true → s.host = heartbeat →
    ∃ t, run 3 s = .next t
      ∧ OutHolds t (transform s.cfg s.key [s.key, s.cfg.kaFirst, s.cfg.kaSecond])
end

