-- ==== Sys2Proof/Laws/Memory.lean ====
section
/-! SUPPORT. The laws of the byte arrays: a read after a write, what a run of writes leaves, and that
every write keeps the canonical form and the range of the indices. -/

namespace Sys2Proof.Machine

theorem Memory.read_write_same (m : Memory) (a : Nat) (b : Byte) : (m.write a b).read a = some b := by
  induction m with
  | nil => simp [Memory.write, Memory.read]
  | cons c rest ih =>
    unfold Memory.write
    split
    · simp [Memory.read]
    · split
      · simp [Memory.read]
      · rename_i h1 h2
        simp [Memory.read, ih, Ne.symm h2]

theorem Memory.read_write_other (m : Memory) {a j : Nat} (b : Byte) (h : j ≠ a) :
    (m.write a b).read j = m.read j := by
  induction m with
  | nil => simp [Memory.write, Memory.read, Ne.symm h]
  | cons c rest ih =>
    unfold Memory.write
    split
    · simp [Memory.read, Ne.symm h]
    · split
      · rename_i h1 h2
        simp [Memory.read, Ne.symm h, ← h2]
      · simp [Memory.read, ih]

theorem Memory.mem_write {m : Memory} {a : Nat} {b : Byte} {c : Host.Cell} (h : c ∈ m.write a b) :
    c = (a, b) ∨ c ∈ m := by
  induction m with
  | nil => simpa [Memory.write] using h
  | cons d rest ih =>
    unfold Memory.write at h
    split at h
    · simpa using h
    · split at h
      · rcases List.mem_cons.1 h with h | h <;> simp [h]
      · rcases List.mem_cons.1 h with h | h
        · simp [h]
        · rcases ih h with h | h <;> simp [h]

theorem Memory.wf_write {m : Memory} (a : Nat) (b : Byte) (h : m.wf) : (m.write a b).wf := by
  induction m with
  | nil => simp [Memory.wf, Memory.write]
  | cons c rest ih =>
    obtain ⟨hc, hr⟩ := List.pairwise_cons.1 h
    unfold Memory.write
    split
    · rename_i h1
      refine List.pairwise_cons.2 ⟨?_, h⟩
      intro d hd
      rcases List.mem_cons.1 hd with rfl | hd
      · exact h1
      · exact lt_trans h1 (hc d hd)
    · split
      · rename_i h1 h2
        subst h2
        exact List.pairwise_cons.2 ⟨hc, hr⟩
      · rename_i h1 h2
        refine List.pairwise_cons.2 ⟨?_, ih hr⟩
        intro d hd
        rcases Memory.mem_write hd with rfl | hd
        · show c.1 < a
          omega
        · exact hc d hd

theorem Memory.wf_writeBytes {m : Memory} (a : Nat) (s : List Byte) (h : m.wf) :
    (m.writeBytes a s).wf := by
  induction s generalizing m a with
  | nil => exact h
  | cons b rest ih => exact ih (a + 1) (Memory.wf_write a b h)

theorem Memory.mem_writeBytes {m : Memory} {a : Nat} {s : List Byte} {c : Host.Cell}
    (h : c ∈ m.writeBytes a s) : c.1 < a + s.length ∨ c ∈ m := by
  induction s generalizing m a with
  | nil => exact .inr h
  | cons b rest ih =>
    rcases ih h with h | h
    · left; simp; omega
    · rcases Memory.mem_write h with rfl | h
      · left; simp
      · exact .inr h

theorem Memory.read_writeBytes_below (m : Memory) {a j : Nat} (s : List Byte) (h : j < a) :
    (m.writeBytes a s).read j = m.read j := by
  induction s generalizing m a with
  | nil => rfl
  | cons b rest ih =>
    rw [Memory.writeBytes, ih _ (by omega), Memory.read_write_other _ _ (by omega)]

theorem Memory.read_writeBytes_above (m : Memory) {a j : Nat} (s : List Byte) (h : a + s.length ≤ j) :
    (m.writeBytes a s).read j = m.read j := by
  induction s generalizing m a with
  | nil => rfl
  | cons b rest ih =>
    simp only [List.length_cons] at h
    rw [Memory.writeBytes, ih _ (by omega), Memory.read_write_other _ _ (by omega)]

theorem Memory.read_writeBytes_at (m : Memory) (a : Nat) (s : List Byte) {j : Nat} (h : j < s.length) :
    (m.writeBytes a s).read (a + j) = some s[j] := by
  induction s generalizing m a j with
  | nil => simp at h
  | cons b rest ih =>
    rw [Memory.writeBytes]
    cases j with
    | zero =>
      rw [Memory.read_writeBytes_below _ _ (by omega)]
      exact Memory.read_write_same m a b
    | succ k =>
      have hk : k < rest.length := by simpa using h
      have := ih (m.write a b) (a + 1) hk
      rw [show a + (k + 1) = a + 1 + k by omega, this]
      rfl

/-- `MemRead` answers `b` exactly when `b` has the length asked for and stands there byte for byte. -/
theorem Memory.readBytes_eq_some_iff (m : Memory) (a n : Nat) (b : List Byte) :
    m.readBytes a n = some b ↔ n = b.length ∧ ∀ j (h : j < b.length), m.read (a + j) = some b[j] := by
  induction n generalizing a b with
  | zero =>
    constructor
    · intro h
      obtain rfl : [] = b := by simpa [Memory.readBytes] using h
      simp
    · rintro ⟨h, -⟩
      obtain rfl := List.length_eq_zero_iff.1 h.symm
      rfl
  | succ k ih =>
    unfold Memory.readBytes
    cases b with
    | nil =>
      cases m.read a <;> cases Memory.readBytes m (a + 1) k <;> simp
    | cons x rest =>
      have step : (k + 1 = (x :: rest).length ∧
          ∀ j (h : j < (x :: rest).length), m.read (a + j) = some (x :: rest)[j]) ↔
          m.read a = some x ∧ m.readBytes (a + 1) k = some rest := by
        rw [ih]
        constructor
        · rintro ⟨h1, h2⟩
          refine ⟨h2 0 (by simp), by simpa using h1, fun j h => ?_⟩
          have := h2 (j + 1) (by simpa using h)
          rw [show a + 1 + j = a + (j + 1) by omega, this]
          rfl
        · rintro ⟨h0, h1, h2⟩
          refine ⟨by simpa using h1, fun j h => ?_⟩
          cases j with
          | zero => simpa using h0
          | succ j =>
            have := h2 j (by simpa using h)
            rw [show a + (j + 1) = a + 1 + j by omega, this]
            rfl
      rw [step]
      cases h1 : m.read a <;> cases h2 : Memory.readBytes m (a + 1) k <;> simp

end Sys2Proof.Machine
end

