-- ==== Sys2Proof/Laws/State.lean ====
section
/-! SUPPORT. What each named update of the state does to each field: one lemma a field, true by rfl. -/

namespace Sys2Proof.Machine

variable (s : State)

@[simp] theorem State.setStatus_cfg (v : Status) : (s.setStatus v).cfg = s.cfg := rfl
@[simp] theorem State.setStatus_key (v : Status) : (s.setStatus v).key = s.key := rfl
@[simp] theorem State.setStatus_inBuf (v : Status) : (s.setStatus v).inBuf = s.inBuf := rfl
@[simp] theorem State.setStatus_inLen (v : Status) : (s.setStatus v).inLen = s.inLen := rfl
@[simp] theorem State.setStatus_outBuf (v : Status) : (s.setStatus v).outBuf = s.outBuf := rfl
@[simp] theorem State.setStatus_outLen (v : Status) : (s.setStatus v).outLen = s.outLen := rfl
@[simp] theorem State.setStatus_status (v : Status) : (s.setStatus v).status = v := rfl
@[simp] theorem State.setStatus_ctr (v : Status) : (s.setStatus v).ctr = s.ctr := rfl
@[simp] theorem State.setStatus_identity (v : Status) : (s.setStatus v).identity = s.identity := rfl
@[simp] theorem State.setStatus_alerts (v : Status) : (s.setStatus v).alerts = s.alerts := rfl
@[simp] theorem State.setStatus_progress (v : Status) : (s.setStatus v).progress = s.progress := rfl
@[simp] theorem State.setStatus_statistics (v : Status) : (s.setStatus v).statistics = s.statistics := rfl
@[simp] theorem State.setStatus_host (v : Status) : (s.setStatus v).host = s.host := rfl
@[simp] theorem State.setStatus_reply (v : Status) : (s.setStatus v).reply = s.reply := rfl

@[simp] theorem State.setKey_cfg (k : Byte) : (s.setKey k).cfg = s.cfg := rfl
@[simp] theorem State.setKey_key (k : Byte) : (s.setKey k).key = k := rfl
@[simp] theorem State.setKey_inBuf (k : Byte) : (s.setKey k).inBuf = s.inBuf := rfl
@[simp] theorem State.setKey_inLen (k : Byte) : (s.setKey k).inLen = s.inLen := rfl
@[simp] theorem State.setKey_outBuf (k : Byte) : (s.setKey k).outBuf = s.outBuf := rfl
@[simp] theorem State.setKey_outLen (k : Byte) : (s.setKey k).outLen = s.outLen := rfl
@[simp] theorem State.setKey_status (k : Byte) : (s.setKey k).status = { s.status with keyV := true } := rfl
@[simp] theorem State.setKey_ctr (k : Byte) : (s.setKey k).ctr = s.ctr := rfl
@[simp] theorem State.setKey_identity (k : Byte) : (s.setKey k).identity = s.identity := rfl
@[simp] theorem State.setKey_alerts (k : Byte) : (s.setKey k).alerts = s.alerts := rfl
@[simp] theorem State.setKey_progress (k : Byte) : (s.setKey k).progress = s.progress := rfl
@[simp] theorem State.setKey_statistics (k : Byte) : (s.setKey k).statistics = s.statistics := rfl
@[simp] theorem State.setKey_host (k : Byte) : (s.setKey k).host = s.host := rfl
@[simp] theorem State.setKey_reply (k : Byte) : (s.setKey k).reply = s.reply := rfl

@[simp] theorem State.storeIn_cfg (b : List Byte) : (s.storeIn b).cfg = s.cfg := rfl
@[simp] theorem State.storeIn_key (b : List Byte) : (s.storeIn b).key = s.key := rfl
@[simp] theorem State.storeIn_inBuf (b : List Byte) : (s.storeIn b).inBuf = s.inBuf.writeBytes 0 b := rfl
@[simp] theorem State.storeIn_inLen (b : List Byte) : (s.storeIn b).inLen = b.length := rfl
@[simp] theorem State.storeIn_outBuf (b : List Byte) : (s.storeIn b).outBuf = s.outBuf := rfl
@[simp] theorem State.storeIn_outLen (b : List Byte) : (s.storeIn b).outLen = s.outLen := rfl
@[simp] theorem State.storeIn_status (b : List Byte) : (s.storeIn b).status = s.status := rfl
@[simp] theorem State.storeIn_ctr (b : List Byte) : (s.storeIn b).ctr = s.ctr := rfl
@[simp] theorem State.storeIn_identity (b : List Byte) : (s.storeIn b).identity = s.identity := rfl
@[simp] theorem State.storeIn_alerts (b : List Byte) : (s.storeIn b).alerts = s.alerts := rfl
@[simp] theorem State.storeIn_progress (b : List Byte) : (s.storeIn b).progress = s.progress := rfl
@[simp] theorem State.storeIn_statistics (b : List Byte) : (s.storeIn b).statistics = s.statistics := rfl
@[simp] theorem State.storeIn_host (b : List Byte) : (s.storeIn b).host = s.host := rfl
@[simp] theorem State.storeIn_reply (b : List Byte) : (s.storeIn b).reply = s.reply := rfl

@[simp] theorem State.storeOut_cfg (b : List Byte) : (s.storeOut b).cfg = s.cfg := rfl
@[simp] theorem State.storeOut_key (b : List Byte) : (s.storeOut b).key = s.key := rfl
@[simp] theorem State.storeOut_inBuf (b : List Byte) : (s.storeOut b).inBuf = s.inBuf := rfl
@[simp] theorem State.storeOut_inLen (b : List Byte) : (s.storeOut b).inLen = s.inLen := rfl
@[simp] theorem State.storeOut_outBuf (b : List Byte) : (s.storeOut b).outBuf = s.outBuf.writeBytes 0 b := rfl
@[simp] theorem State.storeOut_outLen (b : List Byte) : (s.storeOut b).outLen = b.length := rfl
@[simp] theorem State.storeOut_status (b : List Byte) : (s.storeOut b).status = s.status := rfl
@[simp] theorem State.storeOut_ctr (b : List Byte) : (s.storeOut b).ctr = s.ctr := rfl
@[simp] theorem State.storeOut_identity (b : List Byte) : (s.storeOut b).identity = s.identity := rfl
@[simp] theorem State.storeOut_alerts (b : List Byte) : (s.storeOut b).alerts = s.alerts := rfl
@[simp] theorem State.storeOut_progress (b : List Byte) : (s.storeOut b).progress = s.progress := rfl
@[simp] theorem State.storeOut_statistics (b : List Byte) : (s.storeOut b).statistics = s.statistics := rfl
@[simp] theorem State.storeOut_host (b : List Byte) : (s.storeOut b).host = s.host := rfl
@[simp] theorem State.storeOut_reply (b : List Byte) : (s.storeOut b).reply = s.reply := rfl

@[simp] theorem State.setCtr_cfg (v : BitVec 8) : (s.setCtr v).cfg = s.cfg := rfl
@[simp] theorem State.setCtr_key (v : BitVec 8) : (s.setCtr v).key = s.key := rfl
@[simp] theorem State.setCtr_inBuf (v : BitVec 8) : (s.setCtr v).inBuf = s.inBuf := rfl
@[simp] theorem State.setCtr_inLen (v : BitVec 8) : (s.setCtr v).inLen = s.inLen := rfl
@[simp] theorem State.setCtr_outBuf (v : BitVec 8) : (s.setCtr v).outBuf = s.outBuf := rfl
@[simp] theorem State.setCtr_outLen (v : BitVec 8) : (s.setCtr v).outLen = s.outLen := rfl
@[simp] theorem State.setCtr_status (v : BitVec 8) : (s.setCtr v).status = s.status := rfl
@[simp] theorem State.setCtr_ctr (v : BitVec 8) : (s.setCtr v).ctr = v := rfl
@[simp] theorem State.setCtr_identity (v : BitVec 8) : (s.setCtr v).identity = s.identity := rfl
@[simp] theorem State.setCtr_alerts (v : BitVec 8) : (s.setCtr v).alerts = s.alerts := rfl
@[simp] theorem State.setCtr_progress (v : BitVec 8) : (s.setCtr v).progress = s.progress := rfl
@[simp] theorem State.setCtr_statistics (v : BitVec 8) : (s.setCtr v).statistics = s.statistics := rfl
@[simp] theorem State.setCtr_host (v : BitVec 8) : (s.setCtr v).host = s.host := rfl
@[simp] theorem State.setCtr_reply (v : BitVec 8) : (s.setCtr v).reply = s.reply := rfl

@[simp] theorem State.runCounter_cfg (n : Nat) : (s.runCounter n).cfg = s.cfg := rfl
@[simp] theorem State.runCounter_key (n : Nat) : (s.runCounter n).key = s.key := rfl
@[simp] theorem State.runCounter_inBuf (n : Nat) : (s.runCounter n).inBuf = s.inBuf := rfl
@[simp] theorem State.runCounter_inLen (n : Nat) : (s.runCounter n).inLen = s.inLen := rfl
@[simp] theorem State.runCounter_outBuf (n : Nat) : (s.runCounter n).outBuf = s.outBuf := rfl
@[simp] theorem State.runCounter_outLen (n : Nat) : (s.runCounter n).outLen = s.outLen := rfl
@[simp] theorem State.runCounter_status (n : Nat) : (s.runCounter n).status = s.status := rfl
@[simp] theorem State.runCounter_ctr (n : Nat) : (s.runCounter n).ctr = counterAfter n := rfl
@[simp] theorem State.runCounter_identity (n : Nat) : (s.runCounter n).identity = s.identity := rfl
@[simp] theorem State.runCounter_alerts (n : Nat) : (s.runCounter n).alerts = s.alerts := rfl
@[simp] theorem State.runCounter_progress (n : Nat) : (s.runCounter n).progress = s.progress := rfl
@[simp] theorem State.runCounter_statistics (n : Nat) : (s.runCounter n).statistics = s.statistics := rfl
@[simp] theorem State.runCounter_host (n : Nat) : (s.runCounter n).host = s.host := rfl
@[simp] theorem State.runCounter_reply (n : Nat) : (s.runCounter n).reply = s.reply := rfl

@[simp] theorem State.setIdV_cfg (v : Bool) : (s.setIdV v).cfg = s.cfg := rfl
@[simp] theorem State.setIdV_key (v : Bool) : (s.setIdV v).key = s.key := rfl
@[simp] theorem State.setIdV_inBuf (v : Bool) : (s.setIdV v).inBuf = s.inBuf := rfl
@[simp] theorem State.setIdV_inLen (v : Bool) : (s.setIdV v).inLen = s.inLen := rfl
@[simp] theorem State.setIdV_outBuf (v : Bool) : (s.setIdV v).outBuf = s.outBuf := rfl
@[simp] theorem State.setIdV_outLen (v : Bool) : (s.setIdV v).outLen = s.outLen := rfl
@[simp] theorem State.setIdV_status (v : Bool) : (s.setIdV v).status = { s.status with idV := v } := rfl
@[simp] theorem State.setIdV_ctr (v : Bool) : (s.setIdV v).ctr = s.ctr := rfl
@[simp] theorem State.setIdV_identity (v : Bool) : (s.setIdV v).identity = s.identity := rfl
@[simp] theorem State.setIdV_alerts (v : Bool) : (s.setIdV v).alerts = s.alerts := rfl
@[simp] theorem State.setIdV_progress (v : Bool) : (s.setIdV v).progress = s.progress := rfl
@[simp] theorem State.setIdV_statistics (v : Bool) : (s.setIdV v).statistics = s.statistics := rfl
@[simp] theorem State.setIdV_host (v : Bool) : (s.setIdV v).host = s.host := rfl
@[simp] theorem State.setIdV_reply (v : Bool) : (s.setIdV v).reply = s.reply := rfl

@[simp] theorem State.setStV_cfg (v : Bool) : (s.setStV v).cfg = s.cfg := rfl
@[simp] theorem State.setStV_key (v : Bool) : (s.setStV v).key = s.key := rfl
@[simp] theorem State.setStV_inBuf (v : Bool) : (s.setStV v).inBuf = s.inBuf := rfl
@[simp] theorem State.setStV_inLen (v : Bool) : (s.setStV v).inLen = s.inLen := rfl
@[simp] theorem State.setStV_outBuf (v : Bool) : (s.setStV v).outBuf = s.outBuf := rfl
@[simp] theorem State.setStV_outLen (v : Bool) : (s.setStV v).outLen = s.outLen := rfl
@[simp] theorem State.setStV_status (v : Bool) : (s.setStV v).status = { s.status with stV := v } := rfl
@[simp] theorem State.setStV_ctr (v : Bool) : (s.setStV v).ctr = s.ctr := rfl
@[simp] theorem State.setStV_identity (v : Bool) : (s.setStV v).identity = s.identity := rfl
@[simp] theorem State.setStV_alerts (v : Bool) : (s.setStV v).alerts = s.alerts := rfl
@[simp] theorem State.setStV_progress (v : Bool) : (s.setStV v).progress = s.progress := rfl
@[simp] theorem State.setStV_statistics (v : Bool) : (s.setStV v).statistics = s.statistics := rfl
@[simp] theorem State.setStV_host (v : Bool) : (s.setStV v).host = s.host := rfl
@[simp] theorem State.setStV_reply (v : Bool) : (s.setStV v).reply = s.reply := rfl

@[simp] theorem State.setPrV_cfg (v : Bool) : (s.setPrV v).cfg = s.cfg := rfl
@[simp] theorem State.setPrV_key (v : Bool) : (s.setPrV v).key = s.key := rfl
@[simp] theorem State.setPrV_inBuf (v : Bool) : (s.setPrV v).inBuf = s.inBuf := rfl
@[simp] theorem State.setPrV_inLen (v : Bool) : (s.setPrV v).inLen = s.inLen := rfl
@[simp] theorem State.setPrV_outBuf (v : Bool) : (s.setPrV v).outBuf = s.outBuf := rfl
@[simp] theorem State.setPrV_outLen (v : Bool) : (s.setPrV v).outLen = s.outLen := rfl
@[simp] theorem State.setPrV_status (v : Bool) : (s.setPrV v).status = { s.status with prV := v } := rfl
@[simp] theorem State.setPrV_ctr (v : Bool) : (s.setPrV v).ctr = s.ctr := rfl
@[simp] theorem State.setPrV_identity (v : Bool) : (s.setPrV v).identity = s.identity := rfl
@[simp] theorem State.setPrV_alerts (v : Bool) : (s.setPrV v).alerts = s.alerts := rfl
@[simp] theorem State.setPrV_progress (v : Bool) : (s.setPrV v).progress = s.progress := rfl
@[simp] theorem State.setPrV_statistics (v : Bool) : (s.setPrV v).statistics = s.statistics := rfl
@[simp] theorem State.setPrV_host (v : Bool) : (s.setPrV v).host = s.host := rfl
@[simp] theorem State.setPrV_reply (v : Bool) : (s.setPrV v).reply = s.reply := rfl

@[simp] theorem State.setCntV_cfg (v : Bool) : (s.setCntV v).cfg = s.cfg := rfl
@[simp] theorem State.setCntV_key (v : Bool) : (s.setCntV v).key = s.key := rfl
@[simp] theorem State.setCntV_inBuf (v : Bool) : (s.setCntV v).inBuf = s.inBuf := rfl
@[simp] theorem State.setCntV_inLen (v : Bool) : (s.setCntV v).inLen = s.inLen := rfl
@[simp] theorem State.setCntV_outBuf (v : Bool) : (s.setCntV v).outBuf = s.outBuf := rfl
@[simp] theorem State.setCntV_outLen (v : Bool) : (s.setCntV v).outLen = s.outLen := rfl
@[simp] theorem State.setCntV_status (v : Bool) : (s.setCntV v).status = { s.status with cntV := v } := rfl
@[simp] theorem State.setCntV_ctr (v : Bool) : (s.setCntV v).ctr = s.ctr := rfl
@[simp] theorem State.setCntV_identity (v : Bool) : (s.setCntV v).identity = s.identity := rfl
@[simp] theorem State.setCntV_alerts (v : Bool) : (s.setCntV v).alerts = s.alerts := rfl
@[simp] theorem State.setCntV_progress (v : Bool) : (s.setCntV v).progress = s.progress := rfl
@[simp] theorem State.setCntV_statistics (v : Bool) : (s.setCntV v).statistics = s.statistics := rfl
@[simp] theorem State.setCntV_host (v : Bool) : (s.setCntV v).host = s.host := rfl
@[simp] theorem State.setCntV_reply (v : Bool) : (s.setCntV v).reply = s.reply := rfl

@[simp] theorem State.setSa_cfg (v : Bool) : (s.setSa v).cfg = s.cfg := rfl
@[simp] theorem State.setSa_key (v : Bool) : (s.setSa v).key = s.key := rfl
@[simp] theorem State.setSa_inBuf (v : Bool) : (s.setSa v).inBuf = s.inBuf := rfl
@[simp] theorem State.setSa_inLen (v : Bool) : (s.setSa v).inLen = s.inLen := rfl
@[simp] theorem State.setSa_outBuf (v : Bool) : (s.setSa v).outBuf = s.outBuf := rfl
@[simp] theorem State.setSa_outLen (v : Bool) : (s.setSa v).outLen = s.outLen := rfl
@[simp] theorem State.setSa_status (v : Bool) : (s.setSa v).status = { s.status with sa := v } := rfl
@[simp] theorem State.setSa_ctr (v : Bool) : (s.setSa v).ctr = s.ctr := rfl
@[simp] theorem State.setSa_identity (v : Bool) : (s.setSa v).identity = s.identity := rfl
@[simp] theorem State.setSa_alerts (v : Bool) : (s.setSa v).alerts = s.alerts := rfl
@[simp] theorem State.setSa_progress (v : Bool) : (s.setSa v).progress = s.progress := rfl
@[simp] theorem State.setSa_statistics (v : Bool) : (s.setSa v).statistics = s.statistics := rfl
@[simp] theorem State.setSa_host (v : Bool) : (s.setSa v).host = s.host := rfl
@[simp] theorem State.setSa_reply (v : Bool) : (s.setSa v).reply = s.reply := rfl

@[simp] theorem State.setIdentity_cfg (r : IdentityRecord) : (s.setIdentity r).cfg = s.cfg := rfl
@[simp] theorem State.setIdentity_key (r : IdentityRecord) : (s.setIdentity r).key = s.key := rfl
@[simp] theorem State.setIdentity_inBuf (r : IdentityRecord) : (s.setIdentity r).inBuf = s.inBuf := rfl
@[simp] theorem State.setIdentity_inLen (r : IdentityRecord) : (s.setIdentity r).inLen = s.inLen := rfl
@[simp] theorem State.setIdentity_outBuf (r : IdentityRecord) : (s.setIdentity r).outBuf = s.outBuf := rfl
@[simp] theorem State.setIdentity_outLen (r : IdentityRecord) : (s.setIdentity r).outLen = s.outLen := rfl
@[simp] theorem State.setIdentity_status (r : IdentityRecord) : (s.setIdentity r).status = s.status := rfl
@[simp] theorem State.setIdentity_ctr (r : IdentityRecord) : (s.setIdentity r).ctr = s.ctr := rfl
@[simp] theorem State.setIdentity_identity (r : IdentityRecord) : (s.setIdentity r).identity = r := rfl
@[simp] theorem State.setIdentity_alerts (r : IdentityRecord) : (s.setIdentity r).alerts = s.alerts := rfl
@[simp] theorem State.setIdentity_progress (r : IdentityRecord) : (s.setIdentity r).progress = s.progress := rfl
@[simp] theorem State.setIdentity_statistics (r : IdentityRecord) : (s.setIdentity r).statistics = s.statistics := rfl
@[simp] theorem State.setIdentity_host (r : IdentityRecord) : (s.setIdentity r).host = s.host := rfl
@[simp] theorem State.setIdentity_reply (r : IdentityRecord) : (s.setIdentity r).reply = s.reply := rfl

@[simp] theorem State.setAlerts_cfg (r : AlertRecord) : (s.setAlerts r).cfg = s.cfg := rfl
@[simp] theorem State.setAlerts_key (r : AlertRecord) : (s.setAlerts r).key = s.key := rfl
@[simp] theorem State.setAlerts_inBuf (r : AlertRecord) : (s.setAlerts r).inBuf = s.inBuf := rfl
@[simp] theorem State.setAlerts_inLen (r : AlertRecord) : (s.setAlerts r).inLen = s.inLen := rfl
@[simp] theorem State.setAlerts_outBuf (r : AlertRecord) : (s.setAlerts r).outBuf = s.outBuf := rfl
@[simp] theorem State.setAlerts_outLen (r : AlertRecord) : (s.setAlerts r).outLen = s.outLen := rfl
@[simp] theorem State.setAlerts_status (r : AlertRecord) : (s.setAlerts r).status = s.status := rfl
@[simp] theorem State.setAlerts_ctr (r : AlertRecord) : (s.setAlerts r).ctr = s.ctr := rfl
@[simp] theorem State.setAlerts_identity (r : AlertRecord) : (s.setAlerts r).identity = s.identity := rfl
@[simp] theorem State.setAlerts_alerts (r : AlertRecord) : (s.setAlerts r).alerts = r := rfl
@[simp] theorem State.setAlerts_progress (r : AlertRecord) : (s.setAlerts r).progress = s.progress := rfl
@[simp] theorem State.setAlerts_statistics (r : AlertRecord) : (s.setAlerts r).statistics = s.statistics := rfl
@[simp] theorem State.setAlerts_host (r : AlertRecord) : (s.setAlerts r).host = s.host := rfl
@[simp] theorem State.setAlerts_reply (r : AlertRecord) : (s.setAlerts r).reply = s.reply := rfl

@[simp] theorem State.setProgress_cfg (r : ProgressRecord) : (s.setProgress r).cfg = s.cfg := rfl
@[simp] theorem State.setProgress_key (r : ProgressRecord) : (s.setProgress r).key = s.key := rfl
@[simp] theorem State.setProgress_inBuf (r : ProgressRecord) : (s.setProgress r).inBuf = s.inBuf := rfl
@[simp] theorem State.setProgress_inLen (r : ProgressRecord) : (s.setProgress r).inLen = s.inLen := rfl
@[simp] theorem State.setProgress_outBuf (r : ProgressRecord) : (s.setProgress r).outBuf = s.outBuf := rfl
@[simp] theorem State.setProgress_outLen (r : ProgressRecord) : (s.setProgress r).outLen = s.outLen := rfl
@[simp] theorem State.setProgress_status (r : ProgressRecord) : (s.setProgress r).status = s.status := rfl
@[simp] theorem State.setProgress_ctr (r : ProgressRecord) : (s.setProgress r).ctr = s.ctr := rfl
@[simp] theorem State.setProgress_identity (r : ProgressRecord) : (s.setProgress r).identity = s.identity := rfl
@[simp] theorem State.setProgress_alerts (r : ProgressRecord) : (s.setProgress r).alerts = s.alerts := rfl
@[simp] theorem State.setProgress_progress (r : ProgressRecord) : (s.setProgress r).progress = r := rfl
@[simp] theorem State.setProgress_statistics (r : ProgressRecord) : (s.setProgress r).statistics = s.statistics := rfl
@[simp] theorem State.setProgress_host (r : ProgressRecord) : (s.setProgress r).host = s.host := rfl
@[simp] theorem State.setProgress_reply (r : ProgressRecord) : (s.setProgress r).reply = s.reply := rfl

@[simp] theorem State.setStatistics_cfg (r : StatisticsRecord) : (s.setStatistics r).cfg = s.cfg := rfl
@[simp] theorem State.setStatistics_key (r : StatisticsRecord) : (s.setStatistics r).key = s.key := rfl
@[simp] theorem State.setStatistics_inBuf (r : StatisticsRecord) : (s.setStatistics r).inBuf = s.inBuf := rfl
@[simp] theorem State.setStatistics_inLen (r : StatisticsRecord) : (s.setStatistics r).inLen = s.inLen := rfl
@[simp] theorem State.setStatistics_outBuf (r : StatisticsRecord) : (s.setStatistics r).outBuf = s.outBuf := rfl
@[simp] theorem State.setStatistics_outLen (r : StatisticsRecord) : (s.setStatistics r).outLen = s.outLen := rfl
@[simp] theorem State.setStatistics_status (r : StatisticsRecord) : (s.setStatistics r).status = s.status := rfl
@[simp] theorem State.setStatistics_ctr (r : StatisticsRecord) : (s.setStatistics r).ctr = s.ctr := rfl
@[simp] theorem State.setStatistics_identity (r : StatisticsRecord) : (s.setStatistics r).identity = s.identity := rfl
@[simp] theorem State.setStatistics_alerts (r : StatisticsRecord) : (s.setStatistics r).alerts = s.alerts := rfl
@[simp] theorem State.setStatistics_progress (r : StatisticsRecord) : (s.setStatistics r).progress = s.progress := rfl
@[simp] theorem State.setStatistics_statistics (r : StatisticsRecord) : (s.setStatistics r).statistics = r := rfl
@[simp] theorem State.setStatistics_host (r : StatisticsRecord) : (s.setStatistics r).host = s.host := rfl
@[simp] theorem State.setStatistics_reply (r : StatisticsRecord) : (s.setStatistics r).reply = s.reply := rfl

@[simp] theorem State.finish_cfg (e : Err) (op : Byte) : (s.finish e op).cfg = s.cfg := rfl
@[simp] theorem State.finish_key (e : Err) (op : Byte) : (s.finish e op).key = s.key := rfl
@[simp] theorem State.finish_inBuf (e : Err) (op : Byte) : (s.finish e op).inBuf = s.inBuf := rfl
@[simp] theorem State.finish_inLen (e : Err) (op : Byte) : (s.finish e op).inLen = s.inLen := rfl
@[simp] theorem State.finish_outBuf (e : Err) (op : Byte) : (s.finish e op).outBuf = s.outBuf := rfl
@[simp] theorem State.finish_outLen (e : Err) (op : Byte) : (s.finish e op).outLen = s.outLen := rfl
@[simp] theorem State.finish_status (e : Err) (op : Byte) : (s.finish e op).status = statusAfter e op s.status := rfl
@[simp] theorem State.finish_ctr (e : Err) (op : Byte) : (s.finish e op).ctr = s.ctr := rfl
@[simp] theorem State.finish_identity (e : Err) (op : Byte) : (s.finish e op).identity = s.identity := rfl
@[simp] theorem State.finish_alerts (e : Err) (op : Byte) : (s.finish e op).alerts = s.alerts := rfl
@[simp] theorem State.finish_progress (e : Err) (op : Byte) : (s.finish e op).progress = s.progress := rfl
@[simp] theorem State.finish_statistics (e : Err) (op : Byte) : (s.finish e op).statistics = s.statistics := rfl
@[simp] theorem State.finish_host (e : Err) (op : Byte) : (s.finish e op).host = s.host := rfl
@[simp] theorem State.finish_reply (e : Err) (op : Byte) : (s.finish e op).reply = s.reply := rfl

@[simp] theorem State.answer_cfg (r : Reply) : (s.answer r).cfg = s.cfg := rfl
@[simp] theorem State.answer_key (r : Reply) : (s.answer r).key = s.key := rfl
@[simp] theorem State.answer_inBuf (r : Reply) : (s.answer r).inBuf = s.inBuf := rfl
@[simp] theorem State.answer_inLen (r : Reply) : (s.answer r).inLen = s.inLen := rfl
@[simp] theorem State.answer_outBuf (r : Reply) : (s.answer r).outBuf = s.outBuf := rfl
@[simp] theorem State.answer_outLen (r : Reply) : (s.answer r).outLen = s.outLen := rfl
@[simp] theorem State.answer_status (r : Reply) : (s.answer r).status = s.status := rfl
@[simp] theorem State.answer_ctr (r : Reply) : (s.answer r).ctr = s.ctr := rfl
@[simp] theorem State.answer_identity (r : Reply) : (s.answer r).identity = s.identity := rfl
@[simp] theorem State.answer_alerts (r : Reply) : (s.answer r).alerts = s.alerts := rfl
@[simp] theorem State.answer_progress (r : Reply) : (s.answer r).progress = s.progress := rfl
@[simp] theorem State.answer_statistics (r : Reply) : (s.answer r).statistics = s.statistics := rfl
@[simp] theorem State.answer_host (r : Reply) : (s.answer r).host = s.host := rfl
@[simp] theorem State.answer_reply (r : Reply) : (s.answer r).reply = r := rfl

@[simp] theorem State.withHost_cfg (h : List HostAction) : (s.withHost h).cfg = s.cfg := rfl
@[simp] theorem State.withHost_key (h : List HostAction) : (s.withHost h).key = s.key := rfl
@[simp] theorem State.withHost_inBuf (h : List HostAction) : (s.withHost h).inBuf = s.inBuf := rfl
@[simp] theorem State.withHost_inLen (h : List HostAction) : (s.withHost h).inLen = s.inLen := rfl
@[simp] theorem State.withHost_outBuf (h : List HostAction) : (s.withHost h).outBuf = s.outBuf := rfl
@[simp] theorem State.withHost_outLen (h : List HostAction) : (s.withHost h).outLen = s.outLen := rfl
@[simp] theorem State.withHost_status (h : List HostAction) : (s.withHost h).status = s.status := rfl
@[simp] theorem State.withHost_ctr (h : List HostAction) : (s.withHost h).ctr = s.ctr := rfl
@[simp] theorem State.withHost_identity (h : List HostAction) : (s.withHost h).identity = s.identity := rfl
@[simp] theorem State.withHost_alerts (h : List HostAction) : (s.withHost h).alerts = s.alerts := rfl
@[simp] theorem State.withHost_progress (h : List HostAction) : (s.withHost h).progress = s.progress := rfl
@[simp] theorem State.withHost_statistics (h : List HostAction) : (s.withHost h).statistics = s.statistics := rfl
@[simp] theorem State.withHost_host (h : List HostAction) : (s.withHost h).host = h := rfl
@[simp] theorem State.withHost_reply (h : List HostAction) : (s.withHost h).reply = s.reply := rfl

variable (st : Status)

@[simp] theorem statusAfter_err (e : Err) (op : Byte) : (statusAfter e op st).err = e := rfl
@[simp] theorem statusAfter_sticky (e : Err) (op : Byte) : (statusAfter e op st).sticky = (st.sticky || isFault e) := rfl
@[simp] theorem statusAfter_idV (e : Err) (op : Byte) : (statusAfter e op st).idV = st.idV := rfl
@[simp] theorem statusAfter_stV (e : Err) (op : Byte) : (statusAfter e op st).stV = st.stV := rfl
@[simp] theorem statusAfter_prV (e : Err) (op : Byte) : (statusAfter e op st).prV = st.prV := rfl
@[simp] theorem statusAfter_cntV (e : Err) (op : Byte) : (statusAfter e op st).cntV = st.cntV := rfl
@[simp] theorem statusAfter_keyV (e : Err) (op : Byte) : (statusAfter e op st).keyV = st.keyV := rfl
@[simp] theorem statusAfter_sa (e : Err) (op : Byte) : (statusAfter e op st).sa = st.sa := rfl
@[simp] theorem statusAfter_lastOp (e : Err) (op : Byte) : (statusAfter e op st).lastOp = op := rfl

@[simp] theorem State.resetUnder_cfg (c : Config) (h : List HostAction) : (State.resetUnder c h).cfg = c := rfl
@[simp] theorem State.resetUnder_inLen (c : Config) (h : List HostAction) : (State.resetUnder c h).inLen = 0 := rfl
@[simp] theorem State.resetUnder_outLen (c : Config) (h : List HostAction) : (State.resetUnder c h).outLen = 0 := rfl
@[simp] theorem State.resetUnder_inBuf (c : Config) (h : List HostAction) : (State.resetUnder c h).inBuf = [] := rfl
@[simp] theorem State.resetUnder_outBuf (c : Config) (h : List HostAction) : (State.resetUnder c h).outBuf = [] := rfl
@[simp] theorem State.resetUnder_status (c : Config) (h : List HostAction) : (State.resetUnder c h).status = Status.reset := rfl
@[simp] theorem State.resetUnder_host (c : Config) (h : List HostAction) : (State.resetUnder c h).host = h := rfl
@[simp] theorem State.resetUnder_reply (c : Config) (h : List HostAction) : (State.resetUnder c h).reply = .nothing := rfl
@[simp] theorem State.resetUnder_ctr (c : Config) (h : List HostAction) : (State.resetUnder c h).ctr = 0x00#8 := rfl
@[simp] theorem State.resetUnder_statistics (c : Config) (h : List HostAction) : (State.resetUnder c h).statistics = StatisticsRecord.reset c := rfl

end Sys2Proof.Machine
end

