-- ==== Sys2Proof/Laws/Ops.lean ====
section
/-! SUPPORT. The shared operations: what reading the input or the output answers, what a producer
answers, and what a STATUS write leaves. -/

namespace Sys2Proof.Machine

/-- A run of bytes written from index 0 stands there. -/
theorem stored_writeBytes (m : Memory) (b : List Byte) : Stored (m.writeBytes 0 b) b := by
  intro j h
  simpa using Memory.read_writeBytes_at m 0 b h

/-- A run of bytes written from index 0 leaves every byte at or above its length as it was. -/
theorem writeBytes_keeps_above (m : Memory) (b : List Byte) {a : Nat} (h : b.length ≤ a) :
    (m.writeBytes 0 b).read a = m.read a := Memory.read_writeBytes_above m b (by omega)

/-- Reading the first bytes of a buffer answers exactly the bytes it holds. -/
theorem leadingBytes_eq_ok_iff (cap : Nat) (m : Memory) (n : Nat) (b : List Byte) :
    leadingBytes cap m n = .ok b ↔ Holds cap m n b := by
  have key := Memory.readBytes_eq_some_iff m 0 n b
  simp only [Nat.zero_add] at key
  unfold leadingBytes Holds
  split
  · rename_i hn
    cases h : m.readBytes 0 n with
    | none =>
      rw [h] at key
      constructor
      · intro h'; cases h'
      · rintro ⟨h1, -, h2⟩
        cases key.2 ⟨h1, h2⟩
    | some x =>
      rw [h] at key
      constructor
      · intro h'
        obtain rfl : x = b := by simpa using h'
        obtain ⟨h1, h2⟩ := key.1 rfl
        exact ⟨h1, h1 ▸ hn, h2⟩
      · rintro ⟨h1, -, h2⟩
        obtain rfl : x = b := by simpa using key.2 ⟨h1, h2⟩
        rfl
  · rename_i hn
    constructor
    · intro h'; cases h'
    · rintro ⟨h1, h2, -⟩
      omega

theorem input_eq_ok_iff (s : State) (b : List Byte) : s.input = .ok b ↔ InHolds s b :=
  leadingBytes_eq_ok_iff _ _ _ _

theorem output_eq_ok_iff (s : State) (b : List Byte) : s.output = .ok b ↔ OutHolds s b :=
  leadingBytes_eq_ok_iff _ _ _ _

/-- With IN holding `b`, a command goes on with `b`. -/
theorem withInput_of_holds {s : State} {b : List Byte} (h : InHolds s b)
    (k : List Byte → Host.Outcome State Fault Refusal) : s.withInput k = k b := by
  unfold State.withInput
  rw [(input_eq_ok_iff s b).2 h]

/-- With OUT holding `b`, a command goes on with `b`. -/
theorem withOutput_of_holds {s : State} {b : List Byte} (h : OutHolds s b)
    (k : List Byte → Host.Outcome State Fault Refusal) : s.withOutput k = k b := by
  unfold State.withOutput
  rw [(output_eq_ok_iff s b).2 h]

/-- A command that reads IN answers a next state only where IN holds bytes. -/
theorem withInput_next {s t : State} {k : List Byte → Host.Outcome State Fault Refusal}
    (h : s.withInput k = .next t) : ∃ b, InHolds s b ∧ k b = .next t := by
  unfold State.withInput at h
  cases hi : s.input with
  | error f => rw [hi] at h; cases h
  | ok b => rw [hi] at h; exact ⟨b, (input_eq_ok_iff s b).1 hi, h⟩

/-- A command that reads OUT answers a next state only where OUT holds bytes. -/
theorem withOutput_next {s t : State} {k : List Byte → Host.Outcome State Fault Refusal}
    (h : s.withOutput k = .next t) : ∃ b, OutHolds s b ∧ k b = .next t := by
  unfold State.withOutput at h
  cases hi : s.output with
  | error f => rw [hi] at h; cases h
  | ok b => rw [hi] at h; exact ⟨b, (output_eq_ok_iff s b).1 hi, h⟩

/-- Bytes that fit are produced. -/
theorem produce_of_fits {s : State} {b : List Byte} (op : Byte) (h : b.length ≤ s.cfg.bufBytes) :
    s.produce op b = .next ((s.storeOut b).finish .ok op) := by
  unfold State.produce
  rw [if_pos h]

/-- What a producer answers as a next state. -/
theorem produce_next {s t : State} {op : Byte} {b : List Byte} (h : s.produce op b = .next t) :
    b.length ≤ s.cfg.bufBytes ∧ t = (s.storeOut b).finish .ok op := by
  unfold State.produce at h
  split at h
  · rename_i hb
    exact ⟨hb, by cases h; rfl⟩
  · cases h

/-- `raise` answers a next state, always. -/
theorem raise_next {s t : State} {e : Err} {op : Byte} (h : s.raise e op = .next t) :
    t = s.finish e op := by
  unfold State.raise at h
  cases h
  rfl

theorem statusAfter_ok (st : Status) (op : Byte) : statusAfter .ok op st = okStatus st op := by
  simp [statusAfter, okStatus, isFault]

theorem statusAfter_fault {e : Err} (h : isFault e = true) (st : Status) (op : Byte) :
    statusAfter e op st = faultStatus st e op := by
  simp [statusAfter, faultStatus, h]

/-- A producer's next state, field by field. -/
theorem produced_storeOut (s : State) (op : Byte) (b : List Byte) :
    Produced s ((s.storeOut b).finish .ok op) op b := by
  refine ⟨?_, stored_writeBytes _ _⟩
  simp only [State.finish, State.setStatus, State.storeOut, statusAfter_ok]

/-- A producer's next state after the transform's counter ran. -/
theorem producedByTransform_storeOut (s : State) (op : Byte) (n : Nat) (b : List Byte) :
    ProducedByTransform s (((s.runCounter n).storeOut b).finish .ok op) op b := by
  refine ⟨?_, stored_writeBytes _ _⟩
  simp only [State.finish, State.setStatus, State.storeOut, State.runCounter, State.setCtr, statusAfter_ok]

/-- A byte string that fits stands in the buffer it was stored to. -/
theorem holds_writeBytes {cap : Nat} (m : Memory) {b : List Byte} (h : b.length ≤ cap) :
    Holds cap (m.writeBytes 0 b) b.length b :=
  ⟨rfl, h, stored_writeBytes m b⟩

/-- A buffer in order holds some bytes. -/
theorem BufferOk.holds {cap : Nat} {m : Memory} {n : Nat} (h : BufferOk cap m n) :
    ∃ b, Holds cap m n b := by
  refine ⟨(List.range n).map fun j => (m.read j).getD 0x00#8, by simp, by simpa using h.len, ?_⟩
  intro j hj
  have hj' : j < n := by simpa using hj
  obtain ⟨x, hx⟩ := Option.isSome_iff_exists.1 (h.held j hj')
  simp [hx]

/-- Storing a byte string that fits leaves the buffer in order. -/
theorem BufferOk.store {cap : Nat} {m : Memory} {n : Nat} (h : BufferOk cap m n) {b : List Byte}
    (hb : b.length ≤ cap) : BufferOk cap (m.writeBytes 0 b) b.length := by
  refine ⟨Memory.wf_writeBytes 0 b h.form, ?_, hb, ?_⟩
  · intro c hc
    rcases Memory.mem_writeBytes hc with hc | hc
    · omega
    · exact h.range c hc
  · intro j hj
    rw [stored_writeBytes m b j hj]
    rfl

/-- An empty buffer is in order. -/
theorem bufferOk_empty (cap : Nat) : BufferOk cap [] 0 := by
  refine ⟨List.Pairwise.nil, ?_, Nat.zero_le _, ?_⟩
  · intro c hc; simp at hc
  · intro j hj; omega

/-- Both buffers are in canonical form right after reset. -/
theorem reset_memory_wf : State.reset.inBuf.wf ∧ State.reset.outBuf.wf := by decide

end Sys2Proof.Machine
end

