-- ==== Sys2Proof/Laws/Meanings.lean ====
section
/-! SUPPORT. Each command's next states, said once: the inversion lemma later proofs cite instead of
unfolding the meaning. -/

namespace Sys2Proof.Machine

theorem execNop_next {s t : State} (h : execNop s = .next t) : t = s.finish .ok 0x00#8 := by
  cases h; rfl

theorem execSetkey_next {k : Byte} {s t : State} (h : execSetkey k s = .next t) :
    t = (s.setKey k).finish .ok 0x01#8 := by
  cases h; rfl

theorem execKeyid_next {s t : State} (h : execKeyid s = .next t) :
    (s.inLen < idMinLen s.cfg.idLayout ∧ t = s.finish .decode 0x02#8)
      ∨ ∃ b, InHolds s b ∧ idMinLen s.cfg.idLayout ≤ s.inLen
          ∧ t = (s.setKey (byteAt b s.cfg.idLayout.key)).finish .ok 0x02#8 := by
  unfold execKeyid at h
  split at h
  · rename_i hl
    exact .inl ⟨hl, raise_next h⟩
  · rename_i hl
    obtain ⟨b, hb, h⟩ := withInput_next h
    exact .inr ⟨b, hb, by omega, by cases h; rfl⟩

theorem execMov_next {s t : State} (h : execMov s = .next t) :
    ∃ b, OutHolds s b ∧ t = (s.storeIn b).finish .ok 0x03#8 := by
  obtain ⟨b, hb, h⟩ := withOutput_next h
  exact ⟨b, hb, by cases h; rfl⟩

theorem execXform_next {c : Bool} {s t : State} (h : execXform c s = .next t) :
    (c = true ∧ s.status.keyV = false ∧ t = s.finish .nokey 0x10#8)
      ∨ (∃ b, InHolds s b ∧ c = true ∧ s.status.keyV = true
          ∧ (transform s.cfg s.key b).length ≤ s.cfg.bufBytes
          ∧ t = ((s.runCounter b.length).storeOut (transform s.cfg s.key b)).finish .ok 0x10#8)
      ∨ ∃ b, InHolds s b ∧ c = false ∧ t = (s.storeOut b).finish .ok 0x10#8 := by
  unfold execXform at h
  split at h
  · rename_i hc
    simp only [Bool.and_eq_true, Bool.not_eq_true'] at hc
    exact .inl ⟨hc.1, hc.2, raise_next h⟩
  · rename_i hc
    obtain ⟨b, hb, h⟩ := withInput_next h
    cases c with
    | true =>
      obtain ⟨hl, h⟩ := produce_next h
      exact .inr (.inl ⟨b, hb, rfl, by simpa using hc, hl, h⟩)
    | false => exact .inr (.inr ⟨b, hb, rfl, (produce_next h).2⟩)

theorem execFrame_next {c p a : Bool} {s t : State} (h : execFrame c p a s = .next t) :
    ((p && a) = true ∧ t = s.finish .illegal 0x11#8)
      ∨ ((p && a) = false ∧ (c || p || a) = true ∧ s.status.keyV = false
          ∧ t = s.finish .nokey 0x11#8)
      ∨ ((p && a) = false ∧ s.cfg.bufBytes < s.inLen + p.toNat + a.toNat
          ∧ t = s.finish .overflow 0x11#8)
      ∨ (∃ b, InHolds s b ∧ (p && a) = false ∧ c = true ∧ s.status.keyV = true
          ∧ (transform s.cfg s.key (framedBytes p a s.key b)).length ≤ s.cfg.bufBytes
          ∧ t = ((s.runCounter (framedBytes p a s.key b).length).storeOut
              (transform s.cfg s.key (framedBytes p a s.key b))).finish .ok 0x11#8)
      ∨ ∃ b, InHolds s b ∧ (p && a) = false ∧ c = false
          ∧ (framedBytes p a s.key b).length ≤ s.cfg.bufBytes
          ∧ t = (s.storeOut (framedBytes p a s.key b)).finish .ok 0x11#8 := by
  unfold execFrame at h
  split at h
  · rename_i hpa
    exact .inl ⟨hpa, raise_next h⟩
  · rename_i hpa
    have hpa : (p && a) = false := by simpa using hpa
    split at h
    · rename_i hk
      rw [Bool.and_eq_true, Bool.not_eq_true'] at hk
      exact .inr (.inl ⟨hpa, hk.1, hk.2, raise_next h⟩)
    · rename_i hk
      split at h
      · rename_i hl
        exact .inr (.inr (.inl ⟨hpa, hl, raise_next h⟩))
      · obtain ⟨b, hb, h⟩ := withInput_next h
        cases c with
        | true =>
          obtain ⟨hl, h⟩ := produce_next h
          exact .inr (.inr (.inr (.inl ⟨b, hb, hpa, rfl, by simpa using hk, hl, h⟩)))
        | false =>
          obtain ⟨hl, h⟩ := produce_next h
          exact .inr (.inr (.inr (.inr ⟨b, hb, hpa, rfl, hl, h⟩)))

theorem execDecid_next {s t : State} (h : execDecid s = .next t) :
    (s.inLen < idMinLen s.cfg.idLayout ∧ t = (s.setIdV false).finish .decode 0x20#8)
      ∨ ∃ b, InHolds s b ∧ idMinLen s.cfg.idLayout ≤ s.inLen
          ∧ t = ((s.setIdentity (identityOf s.cfg.idLayout b s.identity)).setIdV true).finish
              .ok 0x20#8 := by
  unfold execDecid at h
  split at h
  · rename_i hl
    exact .inl ⟨hl, raise_next h⟩
  · rename_i hl
    obtain ⟨b, hb, h⟩ := withInput_next h
    exact .inr ⟨b, hb, by omega, by cases h; rfl⟩

theorem execDecst_next {s t : State} (h : execDecst s = .next t) :
    ∃ b, InHolds s b
      ∧ t = ((s.setAlerts (alertsOf s.cfg.knownMask b)).setStV true).finish .ok 0x21#8 := by
  obtain ⟨b, hb, h⟩ := withInput_next h
  exact ⟨b, hb, by cases h; rfl⟩

theorem execDecpr_next {s t : State} (h : execDecpr s = .next t) :
    (s.inLen < prMinLen s.cfg.progLayout ∧ t = (s.setPrV false).finish .decode 0x22#8)
      ∨ ∃ b, InHolds s b ∧ prMinLen s.cfg.progLayout ≤ s.inLen
          ∧ t = ((s.setProgress (progressOf s.cfg.progLayout b)).setPrV true).finish .ok 0x22#8 := by
  unfold execDecpr at h
  split at h
  · rename_i hl
    exact .inl ⟨hl, raise_next h⟩
  · rename_i hl
    obtain ⟨b, hb, h⟩ := withInput_next h
    exact .inr ⟨b, hb, by omega, by cases h; rfl⟩

theorem execDecstat_next {s t : State} (h : execDecstat s = .next t) :
    ∃ b, InHolds s b
      ∧ t = ((s.setStatistics (statisticsOf b s.statistics)).setCntV true).finish .ok 0x23#8 := by
  obtain ⟨b, hb, h⟩ := withInput_next h
  exact ⟨b, hb, by cases h; rfl⟩

theorem execStchk_next {s t : State} (h : execStchk s = .next t) :
    (s.inLen = 0 ∧ t = (s.setSa false).finish .decode 0x24#8)
      ∨ (∃ b, InHolds s b ∧ byteAt b 0 = 0x0E#8
          ∧ t = (s.setSa false).finish .statsUnavailable 0x24#8)
      ∨ ∃ b, InHolds s b ∧ byteAt b 0 ≠ 0x0E#8 ∧ t = (s.setSa true).finish .ok 0x24#8 := by
  unfold execStchk at h
  split at h
  · rename_i hl
    exact .inl ⟨hl, raise_next h⟩
  · obtain ⟨b, hb, h⟩ := withInput_next h
    split at h
    · rename_i hx
      exact .inr (.inl ⟨b, hb, hx, raise_next h⟩)
    · rename_i hx
      exact .inr (.inr ⟨b, hb, hx, by cases h; rfl⟩)

theorem execEncpr_next {s t : State} (h : execEncpr s = .next t) :
    t = s.finish .config 0x30#8
      ∨ ∃ b, InHolds s b
          ∧ (brewBytes (byteAt b 0) (propertyPairs b.tail)).length ≤ s.cfg.bufBytes
          ∧ t = (s.storeOut (brewBytes (byteAt b 0) (propertyPairs b.tail))).finish .ok 0x30#8 := by
  unfold execEncpr at h
  split at h
  · exact .inl (raise_next h)
  · obtain ⟨b, hb, h⟩ := withInput_next h
    split at h
    · obtain ⟨hl, h⟩ := produce_next h
      exact .inr ⟨b, hb, hl, h⟩
    · exact .inl (raise_next h)

theorem execStsel_next {m : StatsKind} {s t : State} (h : execStsel m s = .next t) :
    (selectorBytes m).length ≤ s.cfg.bufBytes
      ∧ t = (s.storeOut (selectorBytes m)).finish .ok 0x31#8 := produce_next h

theorem execBarista_next {l : LockAction} {s t : State} (h : execBarista l s = .next t) :
    (lockBytes l).length ≤ s.cfg.bufBytes
      ∧ t = (s.storeOut (lockBytes l)).finish .ok 0x32#8 := produce_next h

theorem execKeepalive_next {s t : State} (h : execKeepalive s = .next t) :
    [s.cfg.kaFirst, s.cfg.kaSecond].length ≤ s.cfg.bufBytes
      ∧ t = (s.storeOut [s.cfg.kaFirst, s.cfg.kaSecond]).finish .ok 0x33#8 := produce_next h

/-- What a command word can do: an illegal word writes STATUS; any other runs its command. -/
theorem issueWord_next {w : CommandWord} {s t : State} (h : issueWord w s = .next t) :
    ((∃ e, decode w = .error e) ∧ t = (s.finish .illegal (opOf w)).answer
        (.status (statusWord (statusAfter .illegal (opOf w) s.status))))
      ∨ ∃ i u, decode w = .ok i ∧ exec i s = .next u
          ∧ t = u.answer (.status (statusWord u.status)) := by
  unfold issueWord at h
  cases hd : decode w with
  | error e =>
    rw [hd] at h
    exact .inl ⟨⟨e, rfl⟩, by cases h; rfl⟩
  | ok i =>
    rw [hd] at h
    cases he : exec i s with
    | next u => simp only [he] at h; exact .inr ⟨i, u, rfl, he, by cases h; rfl⟩
    | fault f => simp only [he] at h; cases h
    | refused r => simp only [he] at h; cases h

/-- What a register read can do: give back what `hostRead` gives, and change nothing else. -/
theorem hostReadReg_next {r : HostReg} {s t : State} (h : hostReadReg r s = .next t) :
    ∃ v, hostRead r s = .ok v ∧ t = s.answer v := by
  unfold hostReadReg at h
  cases hr : hostRead r s with
  | ok v => rw [hr] at h; exact ⟨v, rfl, by cases h; rfl⟩
  | error f => rw [hr] at h; cases h

/-- What a step can do: idle, or the host's next action, under a configuration that passed its checks. -/
theorem step_next {s t : State} (h : step s = .next t) :
    configValid s.cfg = true
      ∧ ((s.host = [] ∧ t = s)
        ∨ ∃ a rest, s.host = a :: rest ∧ hostStep a (s.withHost rest) = .next t) := by
  unfold step nextStep at h
  split at h
  · rename_i hc
    refine ⟨hc, ?_⟩
    cases hh : s.host with
    | nil => rw [hh] at h; exact .inl ⟨rfl, by cases h; rfl⟩
    | cons a rest => rw [hh] at h; exact .inr ⟨a, rest, rfl, h⟩
  · cases h

/-- The step is the host's next action, under a configuration that passes its checks. -/
theorem step_of_host {s : State} {a : HostAction} {rest : List HostAction}
    (hc : configValid s.cfg = true) (hh : s.host = a :: rest) :
    step s = hostStep a (s.withHost rest) := by
  unfold step nextStep
  rw [if_pos hc, hh]

/-- A run of one step more, when that step answers a next state. -/
theorem run_of_step {s t : State} (h : step s = .next t) (k : Nat) : run (k + 1) s = run k t := by
  simp only [run, h]

end Sys2Proof.Machine
end

