-- ==== Sys2Proof/Laws/Exec.lean ====
section
/-! SUPPORT. What a command can do, said once for all commands: the inversion lemma of `exec`. -/

namespace Sys2Proof.Machine

/-- Every next state of a command is one of these: OK with the command's own writes, or a failure that
writes STATUS only.  `prod` is a producer without the transform, `prodC` one with it. -/
theorem exec_cases {P : Prop} {i : Instr} {s t : State} (h : exec i s = .next t)
  (nop : i = .nop → t = s.finish .ok 0x00#8 → P)
  (setkey : ∀ k, i = .setkey k → t = (s.setKey k).finish .ok 0x01#8 → P)
  (keyidF : i = .keyid → s.inLen < idMinLen s.cfg.idLayout →
    t = s.finish .decode 0x02#8 → P)
  (keyid : ∀ b, i = .keyid → InHolds s b →
    t = (s.setKey (byteAt b s.cfg.idLayout.key)).finish .ok 0x02#8 → P)
  (mov : ∀ b, i = .mov → OutHolds s b → t = (s.storeIn b).finish .ok 0x03#8 → P)
  (fail : ∀ e op, isFault e = true → i ≠ .decid → i ≠ .decpr → i ≠ .stchk → i ≠ .decst →
    i ≠ .decstat → t = s.finish e op → P)
  (prod : ∀ b op, ((∃ c, i = .xform c) ∨ (∃ c p a, i = .frame c p a) ∨ i = .encpr ∨
      (∃ m, i = .stsel m) ∨ (∃ l, i = .barista l) ∨ i = .keepalive) →
    b.length ≤ s.cfg.bufBytes → t = (s.storeOut b).finish .ok op → P)
  (prodC : ∀ n b op, (i = .xform true ∨ (∃ p a, i = .frame true p a)) → s.status.keyV = true →
    b.length ≤ s.cfg.bufBytes → t = ((s.runCounter n).storeOut b).finish .ok op → P)
  (decidF : i = .decid → s.inLen < idMinLen s.cfg.idLayout →
    t = (s.setIdV false).finish .decode 0x20#8 → P)
  (decid : ∀ b, i = .decid → InHolds s b → idMinLen s.cfg.idLayout ≤ s.inLen →
    t = ((s.setIdentity (identityOf s.cfg.idLayout b s.identity)).setIdV true).finish .ok 0x20#8 →
    P)
  (decst : ∀ b, i = .decst → InHolds s b →
    t = ((s.setAlerts (alertsOf s.cfg.knownMask b)).setStV true).finish .ok 0x21#8 → P)
  (decprF : i = .decpr → t = (s.setPrV false).finish .decode 0x22#8 → P)
  (decpr : ∀ b, i = .decpr → InHolds s b →
    t = ((s.setProgress (progressOf s.cfg.progLayout b)).setPrV true).finish .ok 0x22#8 → P)
  (decstat : ∀ b, i = .decstat → InHolds s b →
    t = ((s.setStatistics (statisticsOf b s.statistics)).setCntV true).finish .ok 0x23#8 → P)
  (stchkF : ∀ e, i = .stchk → e = .decode ∨ e = .statsUnavailable →
    t = (s.setSa false).finish e 0x24#8 → P)
  (stchk : i = .stchk → t = (s.setSa true).finish .ok 0x24#8 → P) : P := by
  cases i <;> simp only [exec] at h
  case nop => exact nop rfl (execNop_next h)
  case setkey => exact setkey _ rfl (execSetkey_next h)
  case keyid =>
    rcases execKeyid_next h with ⟨h1, h2⟩ | ⟨b, h1, _, h2⟩
    · exact keyidF rfl h1 h2
    · exact keyid _ rfl h1 h2
  case mov =>
    obtain ⟨b, h1, h2⟩ := execMov_next h
    exact mov _ rfl h1 h2
  case xform =>
    rcases execXform_next h with ⟨_, _, h2⟩ | ⟨b, _, h1, h4, h3, h2⟩ | ⟨b, h1, _, h2⟩
    · exact fail _ _ rfl nofun nofun nofun nofun nofun h2
    · exact prodC _ _ _ (.inl (by rw [h1])) h4 h3 h2
    · exact prod _ _ (.inl ⟨_, rfl⟩) h1.2.1 h2
  case frame =>
    rcases execFrame_next h with
      ⟨_, h2⟩ | ⟨_, _, _, h2⟩ | ⟨_, _, h2⟩ | ⟨b, _, _, h1, h4, h3, h2⟩ | ⟨b, _, _, _, h3, h2⟩
    · exact fail _ _ rfl nofun nofun nofun nofun nofun h2
    · exact fail _ _ rfl nofun nofun nofun nofun nofun h2
    · exact fail _ _ rfl nofun nofun nofun nofun nofun h2
    · exact prodC _ _ _ (.inr ⟨_, _, by rw [h1]⟩) h4 h3 h2
    · exact prod _ _ (.inr (.inl ⟨_, _, _, rfl⟩)) h3 h2
  case decid =>
    rcases execDecid_next h with ⟨h1, h2⟩ | ⟨b, h1, h3, h2⟩
    · exact decidF rfl h1 h2
    · exact decid _ rfl h1 h3 h2
  case decst =>
    obtain ⟨b, h1, h2⟩ := execDecst_next h
    exact decst _ rfl h1 h2
  case decpr =>
    rcases execDecpr_next h with ⟨_, h2⟩ | ⟨b, h1, _, h2⟩
    · exact decprF rfl h2
    · exact decpr _ rfl h1 h2
  case decstat =>
    obtain ⟨b, h1, h2⟩ := execDecstat_next h
    exact decstat _ rfl h1 h2
  case stchk =>
    rcases execStchk_next h with ⟨_, h2⟩ | ⟨b, _, _, h2⟩ | ⟨b, _, _, h2⟩
    · exact stchkF _ rfl (.inl rfl) h2
    · exact stchkF _ rfl (.inr rfl) h2
    · exact stchk rfl h2
  case encpr =>
    rcases execEncpr_next h with h2 | ⟨b, _, h3, h2⟩
    · exact fail _ _ rfl nofun nofun nofun nofun nofun h2
    · exact prod _ _ (by simp) h3 h2
  case stsel =>
    obtain ⟨h1, h2⟩ := execStsel_next h
    exact prod _ _ (by simp) h1 h2
  case barista =>
    obtain ⟨h1, h2⟩ := execBarista_next h
    exact prod _ _ (by simp) h1 h2
  case keepalive =>
    obtain ⟨h1, h2⟩ := execKeepalive_next h
    exact prod _ _ (by simp) h1 h2

end Sys2Proof.Machine
end

