-- ==== Sys2Proof/Laws/PerInstr.lean ====
section
/-! SUPPORT. A statement made per instruction: the word of a command is a word of its own row of
spec/opcode_table.json, and its OP is the opcode of 30_encoding R72. -/

namespace Sys2Proof.Laws.OpcodeRowOfWord

/-- The command's word carries its opcode in [15:8], and every word of a well-formed command is covered
by the row that has its mnemonic. -/
def Statement (i : Instr) : Prop :=
  opOf (encode i) = opcode i
    ∧ (WellFormed i = true → ∃ r ∈ opcodeTable, r.mnemonic = mnemonic i ∧ r.covers (encode i) = true)

theorem op_of_encode (i : Instr) : opOf (encode i) = opcode i := by
  unfold opOf encode
  ext j hj
  have h1 : 8 + j < 16 := by omega
  simp [BitVec.getElem_extractLsb', h1, BitVec.getLsbD_eq_getElem hj]

theorem nop : Statement .nop := ⟨op_of_encode _, fun _ => by decide⟩
theorem keyid : Statement .keyid := ⟨op_of_encode _, fun _ => by decide⟩
theorem mov : Statement .mov := ⟨op_of_encode _, fun _ => by decide⟩
theorem decid : Statement .decid := ⟨op_of_encode _, fun _ => by decide⟩
theorem decst : Statement .decst := ⟨op_of_encode _, fun _ => by decide⟩
theorem decpr : Statement .decpr := ⟨op_of_encode _, fun _ => by decide⟩
theorem decstat : Statement .decstat := ⟨op_of_encode _, fun _ => by decide⟩
theorem stchk : Statement .stchk := ⟨op_of_encode _, fun _ => by decide⟩
theorem encpr : Statement .encpr := ⟨op_of_encode _, fun _ => by decide⟩
theorem keepalive : Statement .keepalive := ⟨op_of_encode _, fun _ => by decide⟩

/-- The SETKEY row covers every word with OP = 0x01. -/
theorem setkey_row_covers (k : Byte) : (encode (.setkey k)) &&& 0xFF00#16 = 0x0100#16 := by
  ext j hj
  interval_cases j <;> simp [encode, opcode, argument]

theorem setkey (imm8 : Byte) : Statement (.setkey imm8) := by
  refine ⟨op_of_encode _, fun _ => ⟨⟨"SETKEY", 0x0100#16, 0xFF00#16, []⟩, by decide, rfl, ?_⟩⟩
  simp [OpcodeRow.covers, setkey_row_covers]

theorem xform (c : Bool) : Statement (.xform c) :=
  ⟨op_of_encode _, fun _ => by cases c <;> decide⟩

theorem frame (c p a : Bool) : Statement (.frame c p a) :=
  ⟨op_of_encode _, by cases c <;> cases p <;> cases a <;> decide⟩

theorem stsel (m : StatsKind) : Statement (.stsel m) :=
  ⟨op_of_encode _, fun _ => by cases m <;> decide⟩

theorem barista (l : LockAction) : Statement (.barista l) :=
  ⟨op_of_encode _, fun _ => by cases l <;> decide⟩

end Sys2Proof.Laws.OpcodeRowOfWord
end

