-- ==== Sys2Proof/Machine/Asm.lean ====
section
/-! DEFINITION. The assembler text of 30_encoding R80 and R81: one line to the host actions it stands
for, or `none` where the text is not in the grammar (log 23). -/

namespace Sys2Proof.Machine

/-- The characters of a line before `;`, which begins a comment (R80). -/
def beforeComment (cs : List Char) : List Char :=
  match cs with
  | [] => []
  | c :: rest => if c = ';' then [] else c :: beforeComment rest

/-- Blank-separated words; `word` holds the characters of the word in progress, last first. -/
def splitWords (word : List Char) (cs : List Char) : List String :=
  match cs with
  | [] => if word.isEmpty then [] else [String.ofList word.reverse]
  | c :: rest =>
    if c = ' ' then
      if word.isEmpty then splitWords [] rest
      else String.ofList word.reverse :: splitWords [] rest
    else splitWords (c :: word) rest

/-- The words of a line. -/
def lineWords (line : String) : List String := splitWords [] (beforeComment line.toList)

/-- The value of a digit in base 16. -/
def digitValue (c : Char) : Option Nat :=
  if 48 ≤ c.toNat ∧ c.toNat ≤ 57 then some (c.toNat - 48)
  else if 65 ≤ c.toNat ∧ c.toNat ≤ 70 then some (c.toNat - 55)
  else if 97 ≤ c.toNat ∧ c.toNat ≤ 102 then some (c.toNat - 87)
  else none

/-- Digits in a base, most significant first, onto the value `acc` read so far. -/
def digitsValue (base acc : Nat) (cs : List Char) : Option Nat :=
  match cs with
  | [] => some acc
  | c :: rest =>
    match digitValue c with
    | some d => if d < base then digitsValue base (base * acc + d) rest else none
    | none => none

/-- A number: hexadecimal after `0x`, else decimal (R80). -/
def numberValue (t : String) : Option Nat :=
  match t.toList with
  | [] => none
  | '0' :: 'x' :: c :: rest => digitsValue 16 0 (c :: rest)
  | cs => digitsValue 10 0 cs

/-- An operand 0..255 (R80). -/
def imm8Value (t : String) : Option Byte :=
  match numberValue t with
  | some v => if v < 256 then some (BitVec.ofNat 8 v) else none
  | none => none

/-- A word of 16 bits, for `.word` (95_test_vectors Part 3). -/
def wordValue (t : String) : Option CommandWord :=
  match numberValue t with
  | some v => if v < 65536 then some (BitVec.ofNat 16 v) else none
  | none => none

/-- A byte of LOAD: two hexadecimal digits (R80). -/
def hexByte (t : String) : Option Byte :=
  match t.toList with
  | [x, y] => (digitsValue 16 0 [x, y]).map (BitVec.ofNat 8)
  | _ => none

/-- Every byte of LOAD, possibly none. -/
def hexBytes (ts : List String) : Option (List Byte) :=
  match ts with
  | [] => some []
  | t :: rest =>
    match hexByte t, hexBytes rest with
    | some b, some bs => some (b :: bs)
    | _, _ => none

/-- The operand c of a pseudo-instruction: 0 or 1 (R81). -/
def flagValue (t : String) : Option Bool :=
  match t with
  | "0" => some false
  | "1" => some true
  | _ => none

/-- TOTAL or DAILY (R80). -/
def statsKindValue (t : String) : Option StatsKind :=
  match t with
  | "TOTAL" => some .total
  | "DAILY" => some .daily
  | _ => none

/-- LOCK or UNLOCK (R80). -/
def lockValue (t : String) : Option LockAction :=
  match t with
  | "LOCK" => some .lock
  | "UNLOCK" => some .unlock
  | _ => none

/-- A command without operands, its suffixes part of the mnemonic (R80). -/
def plainCommand (t : String) : Option Instr :=
  match t with
  | "NOP" => some .nop
  | "KEYID" => some .keyid
  | "MOV" => some .mov
  | "DECID" => some .decid
  | "DECST" => some .decst
  | "DECPR" => some .decpr
  | "DECSTAT" => some .decstat
  | "STCHK" => some .stchk
  | "ENCPR" => some .encpr
  | "KEEPALIVE" => some .keepalive
  | "XFORM" => some (.xform false)
  | "XFORM.C" => some (.xform true)
  | "FRAME" => some (.frame false false false)
  | "FRAME.C" => some (.frame true false false)
  | "FRAME.P" => some (.frame false true false)
  | "FRAME.P.C" => some (.frame true true false)
  | "FRAME.A" => some (.frame false false true)
  | "FRAME.A.C" => some (.frame true false true)
  | _ => none

/-- The host actions of the words of a line (R80, R81). -/
def assembleWords (ts : List String) : Option (List HostAction) :=
  match ts with
  | [] => some []
  | "LOAD" :: bytes => (hexBytes bytes).map fun b => [.load b]
  | ["FETCH"] => some [.fetch]
  | ["HEARTBEAT"] => some heartbeat
  | [m] => (plainCommand m).map fun i => [issue i]
  | ["SETKEY", v] => (imm8Value v).map fun k => [issue (.setkey k)]
  | ["STSEL", v] => (statsKindValue v).map fun k => [issue (.stsel k)]
  | ["BARISTA", v] => (lockValue v).map fun l => [issue (.barista l)]
  | [".word", v] => (wordValue v).map fun w => [.command w]
  | ["SREAD", c] => (flagValue c).map sread
  | ["SWRITE", c] => (flagValue c).map swrite
  | ["SWRITE_NOKEY", c] => (flagValue c).map swriteNoKey
  | ["BREW", c] => (flagValue c).map brew
  | ["STATS_REQ", m, c] =>
    match statsKindValue m, flagValue c with
    | some k, some f => some (statsReq k f)
    | _, _ => none
  | ["LOCKCMD", l, c] =>
    match lockValue l, flagValue c with
    | some k, some f => some (lockCmd k f)
    | _, _ => none
  | _ => none

/-- The host actions of one line of assembler text (R80). -/
def assembleLine (line : String) : Option (List HostAction) := assembleWords (lineWords line)

end Sys2Proof.Machine
end

