-- ==== Sys2Proof/Tests/Slice0.lean ====
section
/-! SUPPORT. Tests of the model, their expected values taken from 95_test_vectors (V-… and P… are its
names) or written out from 30_encoding R72, and one witness for every statement that has hypotheses. -/

open Sys2Proof Sys2Proof.Machine

namespace Sys2Proof.Tests

/-! ### States to test on -/

/-- The configuration the vectors take: KNOWN_MASK all ones, KA_PAYLOAD = 7F 80, all else as at reset. -/
def labConfig : Config :=
  { resetConfig with knownMask := 0xFFFFFFFFFFFFFFFF#64, kaFirst := 0x7F#8, kaSecond := 0x80#8 }

/-- Right after reset, `h` to come. -/
def fresh (h : List HostAction) : State := State.resetUnder labConfig h

/-- After reset and LOAD of `b`. -/
def loaded (b : List Byte) : State := (fresh []).storeIn b

/-- The same with the key `k`. -/
def keyed (k : Byte) (b : List Byte) : State := (loaded b).setKey k

/-- OUT holds `b`. -/
def filled (b : List Byte) : State := (fresh []).storeOut b

/-- The next state of an outcome. -/
def nextOf (o : Host.Outcome State Fault Refusal) : Option State :=
  match o with
  | .next t => some t
  | .fault _ => none
  | .refused _ => none

/-- What `f` sees after the command. -/
def after {α : Type} (i : Instr) (s : State) (f : State → α) : Option α := (nextOf (exec i s)).map f

/-- OUT[0..OUT_LEN-1] after the command. -/
def outAfter (i : Instr) (s : State) : Option (List Byte) := after i s fun t => t.output.toOption.getD []

/-- STATUS after the command. -/
def statusOf (i : Instr) (s : State) : Option (BitVec 32) := after i s fun t => statusWord t.status

/-- The bytes 00 01 02 ... of V-ID-2 to V-ID-11. -/
def ramp (n : Nat) : List Byte := (List.range n).map (BitVec.ofNat 8)

/-- IN of V-ID-1. -/
def identityBytes : List Byte :=
  [0x2A#8, 0x05#8, 0x06#8, 0x00#8, 0x34#8, 0x12#8, 0x78#8, 0x56#8, 0xBC#8, 0x9A#8, 0x00#8, 0x00#8,
    0x21#8, 0x2E#8, 0x00#8, 0x5A#8]

/-- IN of V-PE-1. -/
def brewInput : List Byte :=
  [0x01#8, 0x02#8, 0x02#8, 0x03#8, 0x04#8, 0x04#8, 0x19#8, 0x07#8, 0x01#8]

/-- OUT of V-PE-1. -/
def brewOutput : List Byte :=
  [0x01#8, 0x02#8, 0x04#8, 0x19#8, 0x00#8, 0x00#8, 0x01#8, 0x00#8, 0x00#8, 0x00#8, 0x00#8, 0x00#8,
    0x00#8, 0x00#8, 0x00#8]

/-- IN of V-PR-4. -/
def progressBytes : List Byte :=
  [0x00#8, 0x01#8, 0x02#8, 0x03#8, 0x04#8, 0x05#8, 0x06#8, 0x07#8, 0x08#8, 0x09#8, 0x0A#8, 0x0B#8,
    0x0C#8, 0x01#8, 0x0E#8]

/-! ### Decoding: every command by a word of R72, and the words of V-EN -/

theorem test_wellFormed_frame : WellFormed (.frame true true false) = true := by decide

/-- R76: FRAME with P = A = 1 is no command, whatever C is. -/
theorem test_wellFormed_refuses_key_first_and_last :
    WellFormed (.frame false true true) = false ∧ WellFormed (.frame true true true) = false := by decide

theorem test_decode_nop : decode 0b0000000000000000#16 = .ok .nop := by decide
theorem test_decode_setkey : decode 0b0000000111111111#16 = .ok (.setkey 0xFF#8) := by decide
theorem test_decode_keyid : decode 0b0000001000000000#16 = .ok .keyid := by decide
theorem test_decode_mov : decode 0b0000001100000000#16 = .ok .mov := by decide
theorem test_decode_xform : decode 0b0001000000000000#16 = .ok (.xform false) := by decide
theorem test_decode_xform_c : decode 0b0001000000000001#16 = .ok (.xform true) := by decide
theorem test_decode_frame_p_c : decode 0b0001000100000011#16 = .ok (.frame true true false) := by decide
theorem test_decode_frame_a : decode 0b0001000100000100#16 = .ok (.frame false false true) := by decide
theorem test_decode_decid : decode 0b0010000000000000#16 = .ok .decid := by decide
theorem test_decode_decst : decode 0b0010000100000000#16 = .ok .decst := by decide
theorem test_decode_decpr : decode 0b0010001000000000#16 = .ok .decpr := by decide
theorem test_decode_decstat : decode 0b0010001100000000#16 = .ok .decstat := by decide
theorem test_decode_stchk : decode 0b0010010000000000#16 = .ok .stchk := by decide
theorem test_decode_encpr : decode 0b0011000000000000#16 = .ok .encpr := by decide
theorem test_decode_stsel_daily : decode 0b0011000100000001#16 = .ok (.stsel .daily) := by decide
theorem test_decode_stsel_total : decode 0b0011000100000000#16 = .ok (.stsel .total) := by decide
theorem test_decode_barista_lock : decode 0b0011001000000001#16 = .ok (.barista .lock) := by decide
theorem test_decode_barista_unlock : decode 0b0011001000000000#16 = .ok (.barista .unlock) := by decide
theorem test_decode_keepalive : decode 0b0011001100000000#16 = .ok .keepalive := by decide

/-- V-EN-1 to V-EN-9. -/
theorem test_decode_rejects :
    decode 0x0001#16 = .error (.reservedArg 0x00#8 0x01#8)
      ∧ decode 0x0480#16 = .error (.unassignedOpcode 0x04#8)
      ∧ decode 0xFF00#16 = .error (.unassignedOpcode 0xFF#8)
      ∧ decode 0x1080#16 = .error (.reservedArg 0x10#8 0x80#8)
      ∧ decode 0x1108#16 = .error (.reservedArg 0x11#8 0x08#8)
      ∧ decode 0x1106#16 = .error .keyFirstAndLast
      ∧ decode 0x2001#16 = .error (.reservedArg 0x20#8 0x01#8)
      ∧ decode 0x3102#16 = .error (.reservedArg 0x31#8 0x02#8)
      ∧ decode 0x3301#16 = .error (.reservedArg 0x33#8 0x01#8) := by decide

/-- The encoder on words of R72. -/
theorem test_encode :
    encode (.setkey 0x2A#8) = 0x012A#16 ∧ encode (.frame true false true) = 0x1105#16
      ∧ encode (.stsel .daily) = 0x3101#16 ∧ encode (.barista .lock) = 0x3201#16 := by decide

theorem test_decodeTableWord :
    decodeTableWord 16 0x1103 = some (.frame true true false) ∧ decodeTableWord 16 0x0480 = none := by
  decide

/-! ### Assembler text (R80, R81) -/

theorem test_assemble_setkey : assembleLine "SETKEY 0x2A ; the key" = some [.command 0x012A#16] := by
  decide
theorem test_assemble_load : assembleLine "LOAD 0e 00" = some [.load [0x0E#8, 0x00#8]] := by decide
theorem test_assemble_heartbeat :
    assembleLine "HEARTBEAT" = some [.command 0x3300#16, .command 0x0300#16, .command 0x1103#16] := by
  decide
theorem test_assemble_brew :
    assembleLine "BREW 0" = some [.command 0x3000#16, .command 0x0300#16, .command 0x1104#16] := by
  decide
theorem test_assemble_refuses : assembleLine "FRAME.P.A" = none ∧ assembleLine "SETKEY 256" = none := by
  decide

/-! ### The transform, dates and lengths -/

/-- The traces of 2.1: n, i and key against out. -/
theorem test_nib_traces :
    nib labConfig 0#4 0 0x0#4 0x0#4 = 1#4 ∧ nib labConfig 0#4 0 0x2#4 0xA#4 = 3#4
      ∧ nib labConfig 15#4 1 0x2#4 0xA#4 = 12#4 ∧ nib labConfig 3#4 17 0x2#4 0xA#4 = 0#4
      ∧ nib labConfig 0#4 255 0xF#4 0xF#4 = 14#4 ∧ nib labConfig 9#4 256 0x2#4 0xA#4 = 12#4 := by decide

/-- The same traces through the datapath; CTR has wrapped to 0 in the last. -/
theorem test_datapath_traces :
    datapathNibble labConfig 1#8 0x2#4 0xA#4 15#4 = 12#4
      ∧ datapathNibble labConfig 17#8 0x2#4 0xA#4 3#4 = 0#4
      ∧ datapathNibble labConfig 255#8 0xF#4 0xF#4 0#4 = 14#4
      ∧ datapathNibble labConfig (255#8 + 1#8) 0x2#4 0xA#4 9#4 = 12#4 := by decide

/-- V-DT-8, V-DT-9. -/
theorem test_dates :
    dateYear 0xFFFF#16 = 2117#12 ∧ dateMonth 0xFFFF#16 = 16#5 ∧ dateDay 0xFFFF#16 = 32#6
      ∧ dateYear 0x2E21#16 = 2013#12 ∧ dateMonth 0x2E21#16 = 2#5 ∧ dateDay 0x2E21#16 = 2#6 := by decide

/-- 41_identity R121 and 43_brew_progress R151: 16 and 15. -/
theorem test_min_lengths : idMinLen defaultIdLayout = 16 ∧ prMinLen defaultProgLayout = 15 := by decide

theorem test_resetConfig_valid : configValid resetConfig = true := by decide

/-! ### One step of each command -/

/-- P7: STATUS 0x00200011 before NOP, 0x00000010 after. -/
theorem test_nop :
    statusOf .nop { fresh [] with
      status := { Status.reset with err := .decode, sticky := true, lastOp := 0x20#8 } }
        = some 0x00000010#32 := by decide

/-- V-CT-3: key 0 is valid. -/
theorem test_setkey_zero : statusOf (.setkey 0x00#8) (fresh []) = some 0x00011000#32 := by decide

/-- V-KI-1, P1. -/
theorem test_keyid :
    after .keyid (loaded identityBytes) (fun t => (t.key, statusWord t.status))
      = some (0x2A#8, 0x00021000#32) := by decide

/-- V-KI-2. -/
theorem test_keyid_short :
    after .keyid (keyed 0x5C#8 (ramp 15)) (fun t => (t.key, t.status.keyV, t.status.err))
      = some (0x5C#8, true, .decode) := by decide

/-- V-CT-4. -/
theorem test_mov :
    after .mov (filled [0x01#8, 0x02#8]) (fun t => (t.input.toOption, t.output.toOption))
      = some (some [0x01#8, 0x02#8], some [0x01#8, 0x02#8]) := by decide

/-- V-CT-5: MOV after reset, over a loaded IN. -/
theorem test_mov_empty : after .mov (loaded [0x01#8]) (·.inLen) = some 0 := by decide

/-- V-CI-6. -/
theorem test_xform_c :
    outAfter (.xform true) (keyed 0x5C#8
      [0x12#8, 0x34#8, 0x56#8, 0x78#8, 0x9A#8, 0xBC#8, 0xDE#8, 0xF0#8])
      = some [0xFF#8, 0xD6#8, 0x6C#8, 0xAC#8, 0xF0#8, 0xDD#8, 0xBB#8, 0x95#8] := by decide

/-- V-XF-2, P7. -/
theorem test_xform_c_without_key :
    statusOf (.xform true) (loaded [0x01#8, 0x02#8]) = some 0x00100016#32 := by decide

/-- V-FR-7. -/
theorem test_frame_a_c :
    outAfter (.frame true false true) (keyed 0x2A#8 brewOutput)
      = some [0x33#8, 0xE8#8, 0x3E#8, 0x9C#8, 0x88#8, 0x81#8, 0xDB#8, 0xDE#8, 0xA3#8, 0x23#8, 0xFA#8,
          0x98#8, 0xA4#8, 0xA3#8, 0xFA#8, 0xF9#8] := by decide

/-- V-FR-3 and V-FR-8. -/
theorem test_frame_p :
    outAfter (.frame true true false) (keyed 0x2A#8 [0x7F#8, 0x80#8]) = some [0x77#8, 0x65#8, 0x6D#8]
      ∧ outAfter (.frame false true false) (keyed 0x2A#8 [0x01#8, 0x02#8])
          = some [0x2A#8, 0x01#8, 0x02#8] := by decide

/-- V-ID-1, P1. -/
theorem test_decid :
    after .decid (keyed 0x2A#8 identityBytes)
      (fun t => (t.identity.article, t.identity.serial, t.identity.date2Y, t.identity.statusBits,
        t.identity.p1, statusWord t.status))
      = some (0x1234#16, 0x9ABC#16, 2013#12, 0x5A#8, false, 0x00201100#32) := by decide

/-- V-ID-9. -/
theorem test_decid_tablet :
    after .decid (loaded (ramp 53))
      (fun t => (t.identity.ver1Len, t.identity.ver2Len, t.identity.tabletLen, t.identity.tablet))
      = some (8, 16, 2, 0x3433) := by decide

/-- V-ST-3. -/
theorem test_decst :
    after .decst (loaded [0x00#8, 0x12#8, 0x34#8]) (·.alerts.raw) = some 0x0000000000002C48#64 := by
  decide

/-- V-ST-9. -/
theorem test_decst_mask :
    after .decst { loaded [0x00#8, 0x12#8, 0x34#8] with
        cfg := { labConfig with knownMask := 0x0000000000002008#64 } } (·.alerts.alert)
      = some 0x0000000000002008#64 := by decide

/-- V-PR-4. -/
theorem test_decpr :
    after .decpr (loaded progressBytes)
      (fun t => (t.progress.state, t.progress.foamMax, t.progress.intake, t.progress.flagRaw,
        t.progress.valid))
      = some (0x01#8, 0x0A#8, 0x0E#8, 0x01#8, false) := by decide

/-- V-PR-2. -/
theorem test_decpr_short :
    statusOf .decpr (loaded (jbleProgressVector.take 14)) = some 0x00220011#32 := by decide

/-- V-CN-8. -/
theorem test_decstat :
    after .decstat (loaded [0x12#8, 0x34#8, 0x56#8, 0x78#8, 0x9A#8, 0xBC#8])
      (fun t => (t.statistics.cntN, t.statistics.cnt.take 2)) = some (2, [0x123456#24, 0x789ABC#24]) := by
  decide

/-- V-CN-7. -/
theorem test_decstat_trailing :
    after .decstat (loaded [0x01#8, 0x02#8, 0x03#8, 0x04#8])
      (fun t => (t.statistics.cntN, t.statistics.cnt.take 1)) = some (1, [0x010203#24]) := by decide

/-- V-SC-1, P5: STICKY unchanged. -/
theorem test_stchk_unavailable :
    statusOf .stchk (keyed 0x2A#8 [0x0E#8, 0x00#8]) = some 0x00241002#32 := by decide

/-- V-SC-7 and V-SC-6. -/
theorem test_stchk :
    after .stchk (loaded []) (fun t => (t.status.err, t.status.sa, t.status.sticky))
        = some (.decode, false, true)
      ∧ after .stchk (loaded [0xFF#8, 0x0E#8]) (fun t => (t.status.err, t.status.sa, t.status.sticky))
        = some (.ok, true, false) := by decide

/-- V-PE-1. -/
theorem test_encpr : outAfter .encpr (loaded brewInput) = some brewOutput := by decide

/-- V-PE-4 and V-PE-6. -/
theorem test_encpr_pairs :
    outAfter .encpr (loaded [0x01#8, 0x02#8, 0x05#8, 0x02#8, 0x06#8])
        = some (0x01#8 :: 0x06#8 :: List.replicate 13 0x00#8)
      ∧ statusOf .encpr (loaded [0x01#8, 0x00#8, 0x05#8]) = some 0x00300013#32 := by decide

/-- V-SS-1, V-SS-2. -/
theorem test_stsel :
    outAfter (.stsel .total) (fresh []) = some [0x00#8, 0x01#8, 0xFF#8, 0xFF#8]
      ∧ outAfter (.stsel .daily) (fresh []) = some [0x00#8, 0x10#8, 0xFF#8, 0xFF#8] := by decide

/-- V-CT-6, V-CT-7. -/
theorem test_barista :
    outAfter (.barista .lock) (fresh []) = some [0x01#8]
      ∧ outAfter (.barista .unlock) (fresh []) = some [0x00#8] := by decide

/-- V-CT-8. -/
theorem test_keepalive : outAfter .keepalive (fresh []) = some [0x7F#8, 0x80#8] := by decide

/-! ### One step of the host -/

/-- P7: .word 0x1106 after a fault. -/
theorem test_illegal_word :
    (nextOf (step { fresh [.command 0x1106#16] with
        status := { Status.reset with sticky := true, lastOp := 0x10#8 } })).map (·.reply)
      = some (.status 0x00110014#32) := by decide

/-- R241 on OUT of P8. -/
theorem test_fetch :
    (nextOf (step { filled [0x77#8, 0xE0#8] with host := [.fetch] })).map (·.reply)
      = some (.bytes [0x77#8, 0xE0#8]) := by decide

/-- `withFetchWord` places the command the next step performs (R70). -/
theorem test_withFetchWord :
    (nextOf (step ((fresh []).withFetchWord 16 0x012A))).map (fun t => (t.key, t.host))
      = some (0x2A#8, []) := by decide

/-- 93 U1: a record register before its decoder has run is a fault of the host program. -/
theorem test_read_before_decode :
    (match step (fresh [.readReg .idKey]) with
      | .fault f => some f
      | _ => none) = some (.notMeaningful .idKey) := by decide

/-- What a read of each register gives back. -/
def readsOf (rs : List HostReg) (s : State) : List (Option Reply) :=
  rs.map fun r => (nextOf (hostStep (.readReg r) s)).map (·.reply)

/-- V-ID-1 and P1: STATUS and neighbouring registers of the identity record. -/
theorem test_read_identity :
    after .decid (keyed 0x2A#8 identityBytes)
        (readsOf [.status, .idKey, .idFw1, .idFw2, .idMachine, .idDate1Y, .idDate2Y, .idDate2M, .idP1])
      = some [some (.value 0x00201100), some (.value 0x2A), some (.value 0x05), some (.value 0x06),
          some (.value 0x5678), some (.value 1990), some (.value 2013), some (.value 2),
          some (.value 0)] := by decide

/-- V-ID-7: a version string reads as its bytes, an absent field gives nothing. -/
theorem test_read_optional :
    after .decid (loaded (ramp 36)) (readsOf [.idVer1Len, .idVer2, .idTabletLen, .idTablet])
      = some [some (.value 8), some (.bytes [0x23#8]), some (.value 0), none] := by decide

/-- V-PR-4: every register of the brew-progress record. -/
theorem test_read_progress :
    after .decpr (loaded progressBytes)
        (readsOf [.prState, .prProduct, .prStrengthCur, .prStrengthMax, .prWaterCur, .prWaterMax,
          .prMilkTimeCur, .prMilkTimeMax, .prFoamCur, .prFoamMax, .prTempMax, .prPauseMax, .prIntake,
          .prFlagRaw, .prValid])
      = some ([1, 2, 3, 4, 5, 6, 7, 8, 9, 0x0A, 0x0B, 0x0C, 0x0E, 1, 0].map fun v => some (.value v)) := by
  decide

/-- V-CN-8: the counters below CNT_N, and none at it. -/
theorem test_read_counters :
    after .decstat (loaded [0x12#8, 0x34#8, 0x56#8, 0x78#8, 0x9A#8, 0xBC#8])
        (readsOf [.cntN, .cnt 0, .cnt 1, .cnt 2])
      = some [some (.value 2), some (.value 0x123456), some (.value 0x789ABC), none] := by decide

/-! ### Witnesses: for each statement with hypotheses, states and operands that meet them -/

/-- A state of the invariant in which every record is valid and both buffers are in use. -/
def bench : State :=
  { fresh [] with
    key := 0x2A#8
    inBuf := Memory.writeBytes [] 0 identityBytes
    inLen := 16
    outBuf := [(0, 0x77#8), (1, 0xE0#8)]
    outLen := 2
    identity := identityOf defaultIdLayout identityBytes IdentityRecord.reset
    alerts := alertsOf labConfig.knownMask [0x00#8, 0x12#8, 0x34#8]
    progress := progressOf defaultProgLayout jbleProgressVector
    statistics := statisticsOf [0x12#8, 0x34#8, 0x56#8] (StatisticsRecord.reset labConfig)
    status := { err := .ok, sticky := true, idV := true, stV := true, prV := true, cntV := true,
                keyV := true, sa := true, lastOp := 0x11#8 } }

theorem test_bench_identityOk : IdentityOk bench.cfg.idLayout bench.identity := by
  constructor <;> decide

theorem test_bench_meets_invariant : EngineInv bench where
  config := by decide
  inOk := by constructor <;> decide
  outOk := by constructor <;> decide
  faultKept := by decide
  identityOk := fun _ => test_bench_identityOk
  alertsOk := by decide
  progressOk := by decide
  cntSize := by
    change (counterGroups [0x12#8, 0x34#8, 0x56#8] ++ (List.replicate (cntMax labConfig) 0).drop 1).length
      = cntMax labConfig
    rw [List.length_append, List.length_drop, List.length_replicate]
    decide
  cntCount := by decide

/-- The invariant says nothing about what the host has still to do. -/
theorem test_bench_inv (h : List HostAction) : EngineInv { bench with host := h } :=
  let ⟨c, i, o, f, d, a, p, n, k⟩ := test_bench_meets_invariant
  ⟨c, i, o, f, d, a, p, n, k⟩

/-- DecodeOfEncode: the smallest and the largest operand. -/
theorem test_witness_DecodeOfEncode :
    WellFormed (.setkey 0x00#8) = true ∧ WellFormed (.setkey 0xFF#8) = true
      ∧ WellFormed (.frame true false true) = true := by decide

theorem test_witness_EncodeOfDecode : decode 0x1105#16 = .ok (.frame true false true) := by decide

/-- DecodeFollowsOpcodeTable: FRAME's row, at its last word and at an excluded one. -/
theorem test_witness_DecodeFollowsOpcodeTable :
    ∃ r ∈ opcodeTable, r.mnemonic = "FRAME" ∧ r.covers 0x1105#16 = true
      ∧ r.covers 0x1106#16 = false := by
  refine ⟨⟨"FRAME", 0x1100#16, 0xFFF8#16, [0x1106#16, 0x1107#16]⟩, ?_⟩
  decide

/-- DecodeRejectsExactlyIllegalWords: the boundaries of FRAME's arguments. -/
theorem test_witness_DecodeRejectsExactlyIllegalWords :
    illegalWord 0x1105#16 = false ∧ illegalWord 0x1106#16 = true ∧ illegalWord 0x1108#16 = true
      ∧ illegalWord 0x3300#16 = false ∧ illegalWord 0x3301#16 = true ∧ illegalWord 0x3400#16 = true := by
  decide

/-- StepRunsDecodedCommand: a command that runs. -/
theorem test_witness_StepRunsDecodedCommand :
    configValid (fresh [.command 0x1000#16]).cfg = true
      ∧ (fresh [.command 0x1000#16]).host = .command 0x1000#16 :: []
      ∧ decode 0x1000#16 = .ok (.xform false)
      ∧ ∃ t, step (fresh [.command 0x1000#16]) = .next t := ⟨by decide, rfl, by decide, _, rfl⟩

/-- IllegalWordChangesOnlyStatus, LastOpIsOpcode: an illegal word, and its next state. -/
theorem test_witness_IllegalWordChangesOnlyStatus :
    illegalWord 0x1106#16 = true
      ∧ ∃ t, hostStep (.command 0x1106#16) (fresh []) = .next t ∧ t.status.err = .illegal
          ∧ t.status.lastOp = 0x11#8 := ⟨by decide, _, rfl, rfl, rfl⟩

/-- StickyOverFaultCodes: a command that faults, one that does not, a LOAD and a reset. -/
theorem test_witness_StickyOverFaultCodes :
    (∃ t, hostStep (.command 0x1001#16) (fresh []) = .next t ∧ t.status.sticky = true)
      ∧ (∃ t, hostStep (.command 0x1000#16) (fresh []) = .next t ∧ t.status.sticky = false)
      ∧ (∃ t, hostStep (.load []) bench = .next t ∧ bench.status.sticky = true
          ∧ t.status.sticky = true)
      ∧ ∃ t, hostStep .reset bench = .next t ∧ t.status.sticky = false :=
  ⟨⟨_, rfl, rfl⟩, ⟨_, rfl, rfl⟩, ⟨_, rfl, rfl, rfl⟩, ⟨_, rfl, rfl⟩⟩

/-- StoresKeepOtherBytes: MOV of two bytes over sixteen, and a LOAD of one; byte 2 and byte 1 stay. -/
theorem test_witness_StoresKeepOtherBytes :
    (∃ t, exec .mov bench = .next t ∧ t.inLen = 2 ∧ t.inBuf.read 2 = some 0x06#8)
      ∧ ∃ t, hostStep (.load [0x00#8]) bench = .next t ∧ t.inBuf.read 1 = some 0x05#8 :=
  ⟨⟨_, rfl, rfl, rfl⟩, ⟨_, rfl, rfl⟩⟩

theorem test_witness_IdleHoldsState : configValid bench.cfg = true ∧ bench.host = [] := by decide

/-- BadConfigurationRefused: the first BUF_BYTES below R8's bound, and the bound itself. -/
theorem test_witness_BadConfigurationRefused :
    configValid { labConfig with bufBytes := 55 } = false
      ∧ configValid { labConfig with bufBytes := 56 } = true := by decide

/-- StepKeepsInvariant, StepKeepsConfiguration, EveryCommandCompletes: an invariant state that steps. -/
theorem test_witness_StepKeepsInvariant :
    EngineInv { bench with host := [.command 0x2000#16] }
      ∧ ∃ t, step { bench with host := [.command 0x2000#16] } = .next t := ⟨test_bench_inv _, _, rfl⟩

/-- ValidBitsHaveOneWriter, KeyHasTwoWriters, CommandsWriteOnlyTheirOwn. -/
theorem test_witness_exec_next :
    (∃ t, exec .stchk bench = .next t) ∧ (∀ k, Instr.stchk ≠ .setkey k) ∧ Instr.stchk ≠ .keyid :=
  ⟨⟨_, rfl⟩, nofun, nofun⟩

/-- DecodersSetTheirBit: success of each decoder, failure of the two that can fail. -/
theorem test_witness_DecodersSetTheirBit :
    (∃ t, exec .decid bench = .next t ∧ t.status.err = .ok)
      ∧ (∃ t, exec .decid (loaded (ramp 15)) = .next t ∧ t.status.err = .decode)
      ∧ (∃ t, exec .decst bench = .next t ∧ t.status.err = .ok)
      ∧ (∃ t, exec .decpr bench = .next t ∧ t.status.err = .ok)
      ∧ (∃ t, exec .decpr (loaded (ramp 14)) = .next t ∧ t.status.err = .decode)
      ∧ ∃ t, exec .decstat bench = .next t ∧ t.status.err = .ok :=
  ⟨⟨_, rfl, rfl⟩, ⟨_, rfl, rfl⟩, ⟨_, rfl, rfl⟩, ⟨_, rfl, rfl⟩, ⟨_, rfl, rfl⟩, ⟨_, rfl, rfl⟩⟩

theorem test_witness_FailureWritesNoResult :
    ∃ t, exec .encpr bench = .next t ∧ t.status.err ≠ .ok := ⟨_, rfl, by decide⟩

/-- KeyidResult, DecidMandatoryFields, ShortRecordsAreDecodeErrors: 15 bytes and 16. -/
theorem test_witness_identity_lengths :
    InHolds (loaded (ramp 15)) (ramp 15) ∧ (ramp 15).length < idMinLen labConfig.idLayout
      ∧ (loaded (ramp 15)).inLen < idMinLen (loaded (ramp 15)).cfg.idLayout
      ∧ InHolds (loaded identityBytes) identityBytes
      ∧ idMinLen labConfig.idLayout ≤ identityBytes.length := by decide

/-- MovResult: an empty OUT and one of two bytes. -/
theorem test_witness_MovResult :
    OutHolds (loaded [0x01#8]) [] ∧ OutHolds (filled [0x01#8, 0x02#8]) [0x01#8, 0x02#8] := by decide

/-- XformCopies, XformEnciphers: an empty IN and one of two bytes, with a key. -/
theorem test_witness_XformEnciphers :
    InHolds (keyed 0x2A#8 []) [] ∧ (keyed 0x2A#8 []).status.keyV = true
      ∧ InHolds (keyed 0x2A#8 [0x3B#8, 0xE1#8]) [0x3B#8, 0xE1#8]
      ∧ (keyed 0x2A#8 [0x3B#8, 0xE1#8]).status.keyV = true := by decide

theorem test_witness_XformWithoutKey : (loaded [0x01#8, 0x02#8]).status.keyV = false := by decide

/-- TransformIsInvolution, DefaultTablesMoveEveryNibble. -/
theorem test_witness_TransformIsInvolution :
    isInvolution labConfig.t1 = true ∧ isInvolution labConfig.t2 = true
      ∧ labConfig.t1 = defaultT1 ∧ labConfig.t2 = defaultT2 := by decide

theorem test_witness_EncipherTwiceRestores :
    let s : State := { keyed 0x2A#8 [0x3B#8] with
      host := [issue (.xform true), issue .mov, issue (.xform true)] }
    configValid s.cfg = true ∧ InHolds s [0x3B#8] ∧ s.status.keyV = true
      ∧ s.host = [issue (.xform true), issue .mov, issue (.xform true)] := by decide

/-- A small BUF_BYTES, full with 56 bytes or one byte short of it. -/
def nearlyFull (n : Nat) : State :=
  { keyed 0x2A#8 (ramp n) with cfg := { labConfig with bufBytes := 56 } }

/-- FrameResult: a framed length of exactly BUF_BYTES, with and without the key byte, and no key. -/
theorem test_witness_FrameResult :
    (InHolds (nearlyFull 55) (ramp 55) ∧ (nearlyFull 55).status.keyV = true
        ∧ (ramp 55).length + true.toNat + false.toNat ≤ (nearlyFull 55).cfg.bufBytes)
      ∧ (InHolds (nearlyFull 56) (ramp 56)
        ∧ (ramp 56).length + false.toNat + false.toNat ≤ (nearlyFull 56).cfg.bufBytes)
      ∧ InHolds (loaded [0x01#8]) [0x01#8]
      ∧ ((false || false || false) = true → (loaded [0x01#8]).status.keyV = true) := by decide

/-- FrameFaultsInOrder: P = A = 1, no key, and one byte too many. -/
theorem test_witness_FrameFaultsInOrder :
    (true && true) = true ∧ (loaded [0x01#8]).status.keyV = false
      ∧ (nearlyFull 56).status.keyV = true
      ∧ (nearlyFull 56).cfg.bufBytes < (nearlyFull 56).inLen + true.toNat + false.toNat := by decide

/-- DecidOptionalFields: each threshold, at the length it is not yet met and at the next. -/
theorem test_witness_DecidOptionalFields :
    ∀ n ∈ [27, 28, 35, 36, 51, 52], InHolds (loaded (ramp n)) (ramp n)
      ∧ idMinLen (loaded (ramp n)).cfg.idLayout ≤ (ramp n).length := by decide

/-- DecstResult: no byte, the header alone, and every bit's byte. -/
theorem test_witness_DecstResult :
    ∀ n ∈ [0, 1, 9], InHolds (loaded (ramp n)) (ramp n) := by decide

/-- DecprResult and ShortRecordsAreDecodeErrors: 15 bytes and 14. -/
theorem test_witness_DecprResult :
    InHolds (loaded progressBytes) progressBytes
      ∧ prMinLen (loaded progressBytes).cfg.progLayout ≤ progressBytes.length
      ∧ (loaded (ramp 14)).inLen < prMinLen (loaded (ramp 14)).cfg.progLayout := by decide

theorem test_witness_JbleProgressVectorDecodes :
    configValid (loaded jbleProgressVector).cfg = true
      ∧ InHolds (loaded jbleProgressVector) jbleProgressVector := by decide

/-- DecstatResult: two bytes, three, four. -/
theorem test_witness_DecstatResult :
    ∀ n ∈ [2, 3, 4], InHolds (loaded (ramp n)) (ramp n) := by decide

/-- StchkOutcomes: the three cases. -/
theorem test_witness_StchkOutcomes :
    InHolds (loaded []) [] ∧ InHolds (loaded [0x0E#8]) [0x0E#8] ∧ InHolds (loaded [0x0D#8]) [0x0D#8] := by
  decide

/-- The bytes of code 0x01 with the pairs, as ENCPR takes them. -/
def codeAndPairs (pairs : List (Byte × Byte)) : List Byte :=
  0x01#8 :: pairs.flatMap fun p => [p.1, p.2]

/-- EncprResult: slots 1 and 11. -/
theorem test_witness_EncprResult :
    InHolds (loaded (codeAndPairs [(0x01#8, 0x07#8), (0x0B#8, 0x09#8)]))
        (codeAndPairs [(0x01#8, 0x07#8), (0x0B#8, 0x09#8)])
      ∧ (∀ p ∈ [(0x01#8, 0x07#8), (0x0B#8, 0x09#8)], 1 ≤ p.1.toNat ∧ p.1.toNat ≤ 11)
      ∧ 15 ≤ (loaded (codeAndPairs [(0x01#8, 0x07#8), (0x0B#8, 0x09#8)])).cfg.bufBytes :=
  ⟨by decide, by simp, by decide⟩

/-- EncprResult: no pair at all. -/
theorem test_witness_EncprResult_no_pair :
    InHolds (loaded (codeAndPairs [])) (codeAndPairs [])
      ∧ (∀ p ∈ ([] : List (Byte × Byte)), 1 ≤ p.1.toNat ∧ p.1.toNat ≤ 11) := ⟨by decide, by simp⟩

/-- EncprConfigFaults: lengths 0 and 2, slots 0 and 12. -/
theorem test_witness_EncprConfigFaults :
    (loaded []).inLen % 2 = 0 ∧ (loaded [0x01#8, 0x02#8]).inLen % 2 = 0
      ∧ ∀ pairs ∈ [[(0x00#8, 0x05#8)], [(0x0C#8, 0x01#8)]],
          InHolds (loaded (codeAndPairs pairs)) (codeAndPairs pairs)
            ∧ ∃ p ∈ pairs, p.1.toNat < 1 ∨ 11 < p.1.toNat := by decide

/-- ConstantPayloads: the smallest BUF_BYTES R8 allows. -/
theorem test_witness_ConstantPayloads : 56 ≤ (nearlyFull 0).cfg.bufBytes := by decide

/-- LoadStep: a LOAD that fills IN and one a byte too long. -/
theorem test_witness_LoadStep :
    (ramp 56).length ≤ (nearlyFull 0).cfg.bufBytes
      ∧ ¬ (ramp 57).length ≤ (nearlyFull 0).cfg.bufBytes := by decide

/-- FetchStep: OUT of two bytes, and a register read that gives a value. -/
theorem test_witness_FetchStep :
    OutHolds bench [0x77#8, 0xE0#8] ∧ ∃ t, hostStep (.readReg .idKey) bench = .next t :=
  ⟨by decide, _, rfl⟩

/-- ReadsGiveOnlyMeaningfulValues: the last byte of OUT, the first above it, and KEY. -/
theorem test_witness_ReadsGiveOnlyMeaningfulValues :
    EngineInv bench ∧ meaningful (.outByte 1) bench = true ∧ meaningful (.outByte 2) bench = false
      ∧ meaningful .key bench = false :=
  ⟨test_bench_meets_invariant, by decide, by decide, by decide⟩

/-- DutifulHostNeverStops: a LOAD of BUF_BYTES bytes is the longest; here a short one, and a read. -/
theorem test_witness_DutifulHostNeverStops :
    EngineInv { bench with host := [.load [0x01#8]] } ∧ HostDuty { bench with host := [.load [0x01#8]] }
      ∧ EngineInv { bench with host := [.readReg .alert] }
      ∧ HostDuty { bench with host := [.readReg .alert] } :=
  ⟨test_bench_inv _, Nat.le_of_ble_eq_true rfl, test_bench_inv _, rfl⟩

/-- UnspecifiedStateNeverMatters, RunsObserveOnlySpecifiedState: two states that differ in KEY without
KEY_V, in IN above IN_LEN, in CTR and in a record that is not valid. -/
theorem test_witness_SameVisible :
    SameVisible (fresh [.command 0x1001#16])
        { fresh [.command 0x1001#16] with
          key := 0x5C#8, inBuf := [(0, 0xFF#8)], ctr := 7#8, alerts := { raw := 1#64, alert := 1#64 } }
      ∧ fresh [.command 0x1001#16] ≠ { fresh [.command 0x1001#16] with key := 0x5C#8 } :=
  ⟨by constructor <;> first | rfl | decide, by decide⟩

/-- BrewSequence: code 0x01 with slots 2 and 3. -/
def brewing : State :=
  { keyed 0x2A#8 (codeAndPairs [(0x02#8, 0x02#8), (0x03#8, 0x04#8)]) with host := brew true }

theorem test_witness_BrewSequence :
    configValid brewing.cfg = true
      ∧ InHolds brewing (codeAndPairs [(0x02#8, 0x02#8), (0x03#8, 0x04#8)])
      ∧ (∀ p ∈ [(0x02#8, 0x02#8), (0x03#8, 0x04#8)], 1 ≤ p.1.toNat ∧ p.1.toNat ≤ 11)
      ∧ brewing.status.keyV = true ∧ brewing.host = brew true :=
  ⟨by decide, by decide, by simp, by decide, rfl⟩

theorem test_witness_HeartbeatSequence :
    let s : State := { keyed 0x2A#8 [] with host := heartbeat }
    configValid s.cfg = true ∧ s.status.keyV = true ∧ s.host = heartbeat := by decide

end Sys2Proof.Tests
end

section
/-! The stores of commands and of LOAD (00_scope R11): each buffer is left as it was or written from
index 0 on, and either way its bytes at or above the new length stay. -/

namespace Sys2Proof.Machine

/-- From contents `m` and length `n` to `m'` and `n'`, a buffer was left alone or had one byte string
stored at index 0, whose length it took. -/
def KeptOrStored (m : Memory) (n : Nat) (m' : Memory) (n' : Nat) : Prop :=
  (m' = m ∧ n' = n) ∨ ∃ b, m' = m.writeBytes 0 b ∧ n' = b.length

theorem KeptOrStored.kept (m : Memory) (n : Nat) : KeptOrStored m n m n := .inl ⟨rfl, rfl⟩

theorem KeptOrStored.stored (m : Memory) (n : Nat) (b : List Byte) :
    KeptOrStored m n (m.writeBytes 0 b) b.length := .inr ⟨b, rfl, rfl⟩

theorem KeptOrStored.read_above {m m' : Memory} {n n' a : Nat} (h : KeptOrStored m n m' n')
    (ha : n' ≤ a) : m'.read a = m.read a := by
  obtain ⟨rfl, -⟩ | ⟨b, rfl, rfl⟩ := h
  · rfl
  · exact writeBytes_keeps_above m b ha

/-- What a command can do to the two buffers: MOV stores to IN, the producers store to OUT, and every
other command, like a failure, leaves both alone. -/
theorem exec_buffers {i : Instr} {s t : State} (h : exec i s = .next t) :
    KeptOrStored s.inBuf s.inLen t.inBuf t.inLen
      ∧ KeptOrStored s.outBuf s.outLen t.outBuf t.outLen := by
  apply exec_cases h
  case mov => rintro b - - rfl; exact ⟨.stored _ _ b, .kept _ _⟩
  case prod => rintro b op - - rfl; exact ⟨.kept _ _, .stored _ _ b⟩
  case prodC => rintro n b op - - - rfl; exact ⟨.kept _ _, .stored _ _ b⟩
  all_goals
    intros
    subst t
    exact ⟨.kept _ _, .kept _ _⟩

/-- What a LOAD can do: store its bytes to IN, when they fit. -/
theorem hostLoad_next {b : List Byte} {s t : State} (h : hostLoad b s = .next t) :
    b.length ≤ s.cfg.bufBytes ∧ t = (s.storeIn b).answer .nothing := by
  unfold hostLoad at h
  split at h
  next hb => exact ⟨hb, by cases h; rfl⟩
  next => cases h

/-- Settles O23: a buffer is left alone or stored to below its new length, by a command
(`exec_buffers`) as by a LOAD (`hostLoad_next`). -/
theorem storesKeepOtherBytes : Obligations.StoresKeepOtherBytes := by
  unfold Obligations.StoresKeepOtherBytes
  refine ⟨fun i s t h a => ?_, fun b s t h a ha => ?_⟩
  · obtain ⟨hin, hout⟩ := exec_buffers h
    exact ⟨hin.read_above, hout.read_above⟩
  · obtain ⟨-, rfl⟩ := hostLoad_next h
    exact writeBytes_keeps_above s.inBuf b ha

end Sys2Proof.Machine
end

section
/-! What one action of the host, and so one step, can do: the inversion lemma of `hostStep` beside the
one of `exec`, and the frame that follows from both. -/

namespace Sys2Proof.Machine

/-- What a FETCH can do: give OUT back, and change nothing else. -/
theorem hostFetch_next {s t : State} (h : hostFetch s = .next t) :
    ∃ b, OutHolds s b ∧ t = s.answer (.bytes b) := by
  obtain ⟨b, hb, h⟩ := withOutput_next h
  exact ⟨b, hb, by cases h; rfl⟩

/-- Every next state of a host action is one of these: a LOAD that fits, an illegal word, a command
that ran, an action that only gives something back (FETCH, a register read, a write to STATUS), or a
reset. -/
theorem hostStep_cases {P : Prop} {a : HostAction} {s t : State} (h : hostStep a s = .next t)
    (load : ∀ b, a = .load b → b.length ≤ s.cfg.bufBytes →
      t = (s.storeIn b).answer .nothing → P)
    (illegal : ∀ w v, a = .command w → t = (s.finish .illegal (opOf w)).answer v → P)
    (command : ∀ w i u v, a = .command w → decode w = .ok i → exec i s = .next u →
      t = u.answer v → P)
    (answer : ∀ v, (∀ w, a ≠ .command w) → a ≠ .reset → t = s.answer v → P)
    (reset : a = .reset → t = State.resetUnder s.cfg s.host → P) : P := by
  cases a <;> simp only [hostStep] at h
  case load b =>
    obtain ⟨hb, h⟩ := hostLoad_next h
    exact load b rfl hb h
  case command w =>
    obtain ⟨-, h⟩ | ⟨i, u, hd, hu, h⟩ := issueWord_next h
    · exact illegal w _ rfl h
    · exact command w i u _ rfl hd hu h
  case fetch =>
    obtain ⟨b, -, h⟩ := hostFetch_next h
    exact answer _ nofun nofun h
  case readReg r =>
    obtain ⟨v, -, h⟩ := hostReadReg_next h
    exact answer v nofun nofun h
  case writeStatus => exact answer .nothing nofun nofun (by cases h; rfl)
  case reset => exact reset rfl (by cases h; rfl)

theorem exec_cfg {i : Instr} {s t : State} (h : exec i s = .next t) : t.cfg = s.cfg := by
  apply exec_cases h
  all_goals
    intros
    subst t
    rfl

theorem hostStep_cfg {a : HostAction} {s t : State} (h : hostStep a s = .next t) : t.cfg = s.cfg := by
  apply hostStep_cases h
  case command => rintro w i u v - - hu rfl; exact (exec_cfg hu : u.cfg = s.cfg)
  all_goals
    intros
    subst t
    rfl

/-- Settles O15: a step is idle or one host action, and neither a command (`exec_cfg`) nor any other
action writes the configuration. -/
theorem stepKeepsConfiguration : Obligations.StepKeepsConfiguration := by
  intro s t h
  obtain ⟨-, ⟨-, rfl⟩ | ⟨a, rest, -, h⟩⟩ := step_next h
  · rfl
  · exact (hostStep_cfg h : t.cfg = (s.withHost rest).cfg)

end Sys2Proof.Machine
end

section
/-! The invariant of the machine: each named update of the state keeps `EngineInv`, so every command,
every action of the host and every step does (10_state R22, R23, R27, R35). -/

namespace Sys2Proof.Machine

theorem length_counterGroups (b : List Byte) : (counterGroups b).length = b.length / 3 := by
  fun_induction counterGroups b with
  | case1 x y z rest ih => simp only [List.length_cons, ih]; omega
  | case2 b hb =>
    match b with
    | [] | [_] | [_, _] => simp
    | x :: y :: z :: rest => exact (hb x y z rest rfl).elim

theorem leNumber_lt (b : List Byte) : leNumber b < 256 ^ b.length := by
  induction b with
  | nil => simp [leNumber]
  | cons x rest ih =>
    have hx : x.toNat < 256 := x.isLt
    simp only [leNumber, List.length_cons, pow_succ]
    omega

theorem length_fieldBytes_le (start width : Nat) (b : List Byte) :
    (fieldBytes start width b).length ≤ width := List.length_take_le _ _

/-- The record DECID writes is in order (41_identity R122, R123). -/
theorem identityOk_identityOf (l : IdLayout) (b : List Byte) (old : IdentityRecord) :
    IdentityOk l (identityOf l b old) where
  date1 := ⟨rfl, rfl, rfl⟩
  date2 := ⟨rfl, rfl, rfl⟩
  ver1On hp := by simp [identityOf, of_decide_eq_true hp, length_fieldBytes_le]
  ver1Off hp := by simp [identityOf, of_decide_eq_false hp]
  ver2On hp := by simp [identityOf, of_decide_eq_true hp, length_fieldBytes_le]
  ver2Off hp := by simp [identityOf, of_decide_eq_false hp]
  tabletOn hp := by simp [identityOf, of_decide_eq_true hp, length_fieldBytes_le, leNumber_lt]
  tabletOff hp := by simp [identityOf, of_decide_eq_false hp]

/-- DECSTAT keeps the number of counters, for an IN that fits. -/
theorem length_statisticsOf_cnt {c : Config} {b : List Byte} {old : StatisticsRecord}
    (hb : b.length ≤ c.bufBytes) (hold : old.cnt.length = cntMax c) :
    (statisticsOf b old).cnt.length = cntMax c := by
  have hle : b.length / 3 ≤ cntMax c := Nat.div_le_div_right hb
  simp only [statisticsOf, List.length_append, List.length_drop, length_counterGroups, hold]
  omega

namespace EngineInv

variable {s : State}

theorem finish (h : EngineInv s) (e : Err) (op : Byte) : EngineInv (s.finish e op) :=
  { h with faultKept := fun he => Bool.or_eq_true_iff.2 (.inr he) }

theorem answer (h : EngineInv s) (v : Reply) : EngineInv (s.answer v) := { h with }

theorem withHost (h : EngineInv s) (a : List HostAction) : EngineInv (s.withHost a) := { h with }

theorem setKey (h : EngineInv s) (k : Byte) : EngineInv (s.setKey k) := { h with }

theorem runCounter (h : EngineInv s) (n : Nat) : EngineInv (s.runCounter n) := { h with }

theorem setSa (h : EngineInv s) (v : Bool) : EngineInv (s.setSa v) := { h with }

theorem storeIn (h : EngineInv s) {b : List Byte} (hb : b.length ≤ s.cfg.bufBytes) :
    EngineInv (s.storeIn b) := { h with inOk := h.inOk.store hb }

theorem storeOut (h : EngineInv s) {b : List Byte} (hb : b.length ≤ s.cfg.bufBytes) :
    EngineInv (s.storeOut b) := { h with outOk := h.outOk.store hb }

theorem clearIdV (h : EngineInv s) : EngineInv (s.setIdV false) := { h with identityOk := nofun }

theorem clearPrV (h : EngineInv s) : EngineInv (s.setPrV false) := { h with progressOk := nofun }

theorem decodedIdentity (h : EngineInv s) (b : List Byte) :
    EngineInv ((s.setIdentity (identityOf s.cfg.idLayout b s.identity)).setIdV true) :=
  { h with identityOk := fun _ => identityOk_identityOf _ b s.identity }

theorem decodedAlerts (h : EngineInv s) (b : List Byte) :
    EngineInv ((s.setAlerts (alertsOf s.cfg.knownMask b)).setStV true) :=
  { h with alertsOk := fun _ => rfl }

theorem decodedProgress (h : EngineInv s) (b : List Byte) :
    EngineInv ((s.setProgress (progressOf s.cfg.progLayout b)).setPrV true) :=
  { h with progressOk := fun _ => decide_eq_true_iff }

theorem decodedStatistics (h : EngineInv s) {b : List Byte} (hb : b.length ≤ s.cfg.bufBytes) :
    EngineInv ((s.setStatistics (statisticsOf b s.statistics)).setCntV true) :=
  { h with
    cntSize := length_statisticsOf_cnt hb h.cntSize
    cntCount := fun _ => Nat.div_le_div_right hb }

/-- Every command keeps the invariant. -/
theorem exec {i : Instr} {t : State} (h : EngineInv s) (ht : exec i s = .next t) : EngineInv t := by
  apply exec_cases ht
  case nop => rintro - rfl; exact h.finish _ _
  case setkey => rintro k - rfl; exact (h.setKey k).finish _ _
  case keyidF => rintro - - rfl; exact h.finish _ _
  case keyid => rintro b - - rfl; exact (h.setKey _).finish _ _
  case mov => rintro b - ⟨-, hb, -⟩ rfl; exact (h.storeIn hb).finish _ _
  case fail => rintro e op - - - - - - rfl; exact h.finish e op
  case prod => rintro b op - hb rfl; exact (h.storeOut hb).finish _ op
  case prodC => rintro n b op - - hb rfl; exact ((h.runCounter n).storeOut hb).finish _ op
  case decidF => rintro - - rfl; exact h.clearIdV.finish _ _
  case decid => rintro b - - - rfl; exact (h.decodedIdentity b).finish _ _
  case decst => rintro b - - rfl; exact (h.decodedAlerts b).finish _ _
  case decprF => rintro - rfl; exact h.clearPrV.finish _ _
  case decpr => rintro b - - rfl; exact (h.decodedProgress b).finish _ _
  case decstat => rintro b - ⟨-, hb, -⟩ rfl; exact (h.decodedStatistics hb).finish _ _
  case stchkF => rintro e - - rfl; exact (h.setSa false).finish e _
  case stchk => rintro - rfl; exact (h.setSa true).finish _ _

end EngineInv

/-- The invariant holds after a reset under every configuration that passes its checks. -/
theorem engineInv_resetUnder {c : Config} (hc : configValid c = true) (a : List HostAction) :
    EngineInv (State.resetUnder c a) where
  config := hc
  inOk := bufferOk_empty _
  outOk := bufferOk_empty _
  faultKept := nofun
  identityOk := nofun
  alertsOk := nofun
  progressOk := nofun
  cntSize := List.length_replicate
  cntCount := nofun

/-- Every action of the host keeps the invariant. -/
theorem EngineInv.hostStep {a : HostAction} {s t : State} (h : EngineInv s)
    (ht : hostStep a s = .next t) : EngineInv t := by
  apply hostStep_cases ht
  case load => rintro b - hb rfl; exact (h.storeIn hb).answer _
  case illegal => rintro w v - rfl; exact (h.finish _ _).answer v
  case command => rintro w i u v - - hu rfl; exact (h.exec hu).answer v
  case answer => rintro v - - rfl; exact h.answer v
  case reset => rintro - rfl; exact engineInv_resetUnder h.config s.host

/-- Settles O14: a step is idle or one host action, taken with that action off the queue; every
command and every other action keeps the invariant (`EngineInv.exec`, `EngineInv.hostStep`). -/
theorem stepKeepsInvariant : Obligations.StepKeepsInvariant := by
  intro s t hs h
  obtain ⟨-, ⟨-, rfl⟩ | ⟨a, rest, -, h⟩⟩ := step_next h
  · exact hs
  · exact (hs.withHost rest).hostStep h

/-- Settles O13: the reset configuration passes its checks, so the reset state under it meets the
invariant (`engineInv_resetUnder`). -/
theorem resetMeetsInvariant : Obligations.ResetMeetsInvariant :=
  engineInv_resetUnder (by decide) []

end Sys2Proof.Machine
end

section
/-! STATUS (10_state R25 to R31, R21): where its fields stand in the word, and which command writes
which of them. -/

namespace Sys2Proof.Machine

/-- A one-bit field of a word holds its value at its own bit and 0 at every other. -/
theorem getLsbD_bitAt (b : Bool) {k : Nat} (hk : k < 32) (i : Nat) :
    (bitAt b k).getLsbD i = (decide (i = k) && b) := by
  unfold bitAt
  rw [BitVec.getLsbD_shiftLeft, BitVec.getLsbD_setWidth, BitVec.getLsbD_ofBool]
  obtain h | rfl | h := Nat.lt_trichotomy i k
  · simp [h, h.ne]
  · simp [hk]
  · simp [h.ne', Nat.sub_ne_zero_of_lt h]

/-- Bit `i` of STATUS: ERR below 4, the one-bit fields, LAST_OP from 16 on (10_state R25). -/
def statusBit (st : Status) (i : Nat) : Bool :=
  (errCode st.err).getLsbD i || decide (i = 4) && st.sticky || decide (i = 8) && st.idV
    || decide (i = 9) && st.stV || decide (i = 10) && st.prV || decide (i = 11) && st.cntV
    || decide (i = 12) && st.keyV || decide (i = 13) && st.sa
    || !decide (i < 16) && st.lastOp.getLsbD (i - 16)

theorem getLsbD_statusWord (st : Status) {i : Nat} (hi : i < 32) :
    (statusWord st).getLsbD i = statusBit st i := by
  simp only [statusWord, statusBit, BitVec.getLsbD_or, getLsbD_bitAt, BitVec.getLsbD_setWidth,
    BitVec.getLsbD_shiftLeft, hi, Nat.lt_of_le_of_lt (Nat.sub_le i 16) hi, Nat.reduceLT, decide_true,
    Bool.true_and]

/-- A field of STATUS is `v` when its bits are. -/
theorem extractLsb'_statusWord (st : Status) {k n : Nat} {v : BitVec n} (hk : k + n ≤ 32)
    (hv : ∀ i < n, statusBit st (k + i) = v.getLsbD i) : (statusWord st).extractLsb' k n = v := by
  ext i hi
  rw [BitVec.getElem_extractLsb', getLsbD_statusWord st (by omega), hv i hi,
    BitVec.getLsbD_eq_getElem]

/-- Settles O16: each one-bit field is one `statusBit`; ERR, LAST_OP and the reserved fields are read
off it bit by bit. -/
theorem statusWordFields : Obligations.StatusWordFields := by
  refine ⟨fun st => ?_, rfl, rfl, rfl, rfl, rfl, rfl, rfl⟩
  refine ⟨extractLsb'_statusWord st (by decide) ?err, ?_,
    extractLsb'_statusWord st (by decide) ?low, ?_, ?_, ?_, ?_, ?_, ?_,
    extractLsb'_statusWord st (by decide) ?mid,
    extractLsb'_statusWord st (by decide) ?lastOp, extractLsb'_statusWord st (by decide) ?high⟩
  case err | low | mid | lastOp | high =>
    intro i hi
    interval_cases i <;> simp [statusBit]
  all_goals
    rw [getLsbD_statusWord st (by decide)]
    simp [statusBit]

theorem decodePlain_eq_ok {j i : Instr} {op arg : Byte} (h : decodePlain j op arg = .ok i) :
    i = j := by
  unfold decodePlain at h
  split at h
  · cases h; rfl
  · cases h

theorem decodeFlag_eq_ok {mk : Bool → Instr} {i : Instr} {op arg : Byte}
    (h : decodeFlag mk op arg = .ok i) : ∃ b, i = mk b := by
  unfold decodeFlag at h
  split at h
  · cases h; exact ⟨_, rfl⟩
  · cases h

theorem decodeFrame_eq_ok {i : Instr} {op arg : Byte} (h : decodeFrame op arg = .ok i) :
    ∃ c p a, i = .frame c p a := by
  unfold decodeFrame at h
  split at h
  · split at h
    · cases h
    · cases h; exact ⟨_, _, _, rfl⟩
  · cases h

/-- A word decodes only to a command whose opcode is the word's OP (30_encoding R79). -/
theorem opcode_of_decode {w : CommandWord} {i : Instr} (h : decode w = .ok i) :
    opcode i = opOf w := by
  simp only [decode] at h
  apply BitVec.eq_of_toNat_eq
  split at h
  case h_2 _ hop => cases h; exact hop.symm
  case h_5 _ hop | h_13 _ hop | h_14 _ hop =>
    obtain ⟨b, rfl⟩ := decodeFlag_eq_ok h
    exact hop.symm
  case h_6 _ hop =>
    obtain ⟨c, p, a, rfl⟩ := decodeFrame_eq_ok h
    exact hop.symm
  case h_16 => cases h
  all_goals
    rename_i hop
    obtain rfl := decodePlain_eq_ok h
    exact hop.symm

/-- Every command ends by the one write of STATUS, with its own opcode (10_state R30, R31). -/
theorem exec_finish {i : Instr} {s t : State} (h : exec i s = .next t) :
    ∃ (u : State) (e : Err), t = u.finish e (opcode i) := by
  cases i <;> simp only [exec] at h
  case nop => exact ⟨_, _, execNop_next h⟩
  case setkey => exact ⟨_, _, execSetkey_next h⟩
  case keyid => obtain ⟨-, rfl⟩ | ⟨b, -, -, rfl⟩ := execKeyid_next h <;> exact ⟨_, _, rfl⟩
  case mov => obtain ⟨b, -, rfl⟩ := execMov_next h; exact ⟨_, _, rfl⟩
  case xform =>
    obtain ⟨-, -, rfl⟩ | ⟨b, -, -, -, -, rfl⟩ | ⟨b, -, -, rfl⟩ := execXform_next h <;>
      exact ⟨_, _, rfl⟩
  case frame =>
    obtain ⟨-, rfl⟩ | ⟨-, -, -, rfl⟩ | ⟨-, -, rfl⟩ | ⟨b, -, -, -, -, -, rfl⟩ | ⟨b, -, -, -, -, rfl⟩ :=
      execFrame_next h <;> exact ⟨_, _, rfl⟩
  case decid => obtain ⟨-, rfl⟩ | ⟨b, -, -, rfl⟩ := execDecid_next h <;> exact ⟨_, _, rfl⟩
  case decst => obtain ⟨b, -, rfl⟩ := execDecst_next h; exact ⟨_, _, rfl⟩
  case decpr => obtain ⟨-, rfl⟩ | ⟨b, -, -, rfl⟩ := execDecpr_next h <;> exact ⟨_, _, rfl⟩
  case decstat => obtain ⟨b, -, rfl⟩ := execDecstat_next h; exact ⟨_, _, rfl⟩
  case stchk =>
    obtain ⟨-, rfl⟩ | ⟨b, -, -, rfl⟩ | ⟨b, -, -, rfl⟩ := execStchk_next h <;> exact ⟨_, _, rfl⟩
  case encpr => obtain rfl | ⟨b, -, -, rfl⟩ := execEncpr_next h <;> exact ⟨_, _, rfl⟩
  case stsel => exact ⟨_, _, (execStsel_next h).2⟩
  case barista => exact ⟨_, _, (execBarista_next h).2⟩
  case keepalive => exact ⟨_, _, (execKeepalive_next h).2⟩

theorem exec_lastOp {i : Instr} {s t : State} (h : exec i s = .next t) :
    t.status.lastOp = opcode i := by
  obtain ⟨u, e, rfl⟩ := exec_finish h
  rfl

/-- Settles O17: an illegal word's OP is written by `issueWord`, a legal one's by its command
(`exec_lastOp`), whose opcode it is (`opcode_of_decode`). -/
theorem lastOpIsOpcode : Obligations.LastOpIsOpcode := by
  intro s t w h
  obtain ⟨-, rfl⟩ | ⟨i, u, hd, hu, rfl⟩ := issueWord_next h
  · rfl
  · calc u.status.lastOp = opcode i := exec_lastOp hu
      _ = opOf w := opcode_of_decode hd

/-- The fault codes are the five of 10_state R27. -/
theorem isFault_iff (e : Err) :
    isFault e = true ↔ e ∈ [Err.decode, Err.config, Err.illegal, Err.overflow, Err.nokey] := by
  cases e <;> decide

/-- A command sets STICKY when it ends with a fault code, and else keeps it (10_state R27). -/
theorem exec_sticky {i : Instr} {s t : State} (h : exec i s = .next t) :
    t.status.sticky = (s.status.sticky || isFault t.status.err) := by
  apply exec_cases h
  all_goals
    intros
    subst t
    rfl

/-- The same of a command word, legal or not. -/
theorem issueWord_sticky {w : CommandWord} {s t : State} (h : issueWord w s = .next t) :
    t.status.sticky = (s.status.sticky || isFault t.status.err) := by
  obtain ⟨-, rfl⟩ | ⟨i, u, -, hu, rfl⟩ := issueWord_next h
  · rfl
  · exact (exec_sticky hu : u.status.sticky = _)

/-- No action of the host but reset clears STICKY. -/
theorem hostStep_keeps_sticky {a : HostAction} {s t : State} (ha : a ≠ .reset)
    (h : hostStep a s = .next t) (hs : s.status.sticky = true) : t.status.sticky = true := by
  apply hostStep_cases h
  case load => rintro b - - rfl; exact hs
  case illegal => rintro w v - rfl; exact Bool.or_eq_true_iff.2 (.inl hs)
  case command =>
    rintro w i u v - - hu rfl
    exact (exec_sticky hu).trans (Bool.or_eq_true_iff.2 (.inl hs))
  case answer => rintro v - - rfl; exact hs
  case reset => intro h; exact absurd h ha

/-- Settles O18: a command word ORs "ERR is a fault code" into STICKY (`issueWord_sticky`), no other
action but reset clears it, and reset does. -/
theorem stickyOverFaultCodes : Obligations.StickyOverFaultCodes := by
  refine fun s t => ⟨fun w h => ?_, fun a ha h => hostStep_keeps_sticky ha h, fun h => ?_⟩
  · rw [issueWord_sticky h, Bool.or_eq_true, isFault_iff]
  · cases h; rfl

/-- Settles O19: of the outcomes of a command only the decoders' and STCHK's write these bits, each
its own. -/
theorem validBitsHaveOneWriter : Obligations.ValidBitsHaveOneWriter := by
  intro i s t h
  apply exec_cases h
  case decid | decidF | decst | decpr | decprF | decstat | stchk | stchkF =>
    intros
    subst i t
    simp
  all_goals
    intros
    subst t
    exact ⟨fun _ => rfl, fun _ => rfl, fun _ => rfl, fun _ => rfl, fun _ => rfl⟩

/-- Settles O20: DECID and DECPR clear their bit with DECODE or set it with OK; DECST and DECSTAT end
with OK on every IN. -/
theorem decodersSetTheirBit : Obligations.DecodersSetTheirBit := by
  intro s t
  refine ⟨fun h => ?_, fun h => ?_, fun h => ?_, fun h => ?_⟩
  · obtain ⟨-, rfl⟩ | ⟨b, -, -, rfl⟩ := execDecid_next h <;> rfl
  · obtain ⟨b, -, rfl⟩ := execDecst_next h
    rfl
  · obtain ⟨-, rfl⟩ | ⟨b, -, -, rfl⟩ := execDecpr_next h <;> rfl
  · obtain ⟨b, -, rfl⟩ := execDecstat_next h
    rfl

/-- Settles O21: of the outcomes of a command only those of SETKEY and KEYID write KEY or KEY_V. -/
theorem keyHasTwoWriters : Obligations.KeyHasTwoWriters := by
  intro i s t h hset hid
  apply exec_cases h
  case setkey => intro k hk; exact absurd hk (hset k)
  case keyid => intro b hi; exact absurd hi hid
  all_goals
    intros
    subst t
    exact ⟨rfl, rfl⟩

/-- The reset value of STATUS is the word 0 (10_state R39). -/
theorem statusWord_reset : statusWord Status.reset = 0x00000000#32 := by decide

/-- Settles O11: the values stand in `State.resetUnder` and `State.reset` as the rule gives them. -/
theorem resetValues : Obligations.ResetValues :=
  ⟨fun _ _ => ⟨rfl, rfl, rfl, statusWord_reset, rfl, rfl, rfl, rfl, rfl, rfl, rfl⟩, rfl⟩

/-- Settles O54: a write to STATUS only answers, with nothing. -/
theorem statusWriteHasNoEffect : Obligations.StatusWriteHasNoEffect := fun _ _ => rfl

end Sys2Proof.Machine
end

section
/-! Register reads (10_state R28, R40, R41): what a read of each register answers, meaningful
or not. -/

namespace Sys2Proof.Machine

theorem readWhen_true {ok : Bool} (h : ok = true) (r : HostReg) (v : Reply) :
    readWhen ok r v = .ok v := if_pos h

theorem readWhen_false {ok : Bool} (h : ok = false) (r : HostReg) (v : Reply) :
    readWhen ok r v = .error (.notMeaningful r) := by
  unfold readWhen
  rw [h, if_neg Bool.false_ne_true]

theorem hostRead_outByte_of_lt {s : State} {b : List Byte} (hb : OutHolds s b) {j : Nat}
    (hj : j < b.length) : hostRead (.outByte j) s = .ok (.value b[j].toNat) := by
  simp [hostRead, (output_eq_ok_iff s b).2 hb, hj]

theorem hostRead_outByte_of_ge {s : State} {b : List Byte} (hb : OutHolds s b) {j : Nat}
    (hj : b.length ≤ j) : hostRead (.outByte j) s = .error (.notMeaningful (.outByte j)) := by
  simp [hostRead, (output_eq_ok_iff s b).2 hb, hj]

/-- A register read is what `hostRead` answers, given back. -/
theorem hostReadReg_of_ok {r : HostReg} {s : State} {v : Reply} (h : hostRead r s = .ok v) :
    hostReadReg r s = .next (s.answer v) := by
  unfold hostReadReg
  rw [h]

theorem hostReadReg_of_error {r : HostReg} {s : State} {f : Fault} (h : hostRead r s = .error f) :
    hostReadReg r s = .fault f := by
  unfold hostReadReg
  rw [h]

/-- In a state of the invariant a meaningful register reads as its value. -/
theorem hostRead_of_meaningful {r : HostReg} {s : State} (hs : EngineInv s)
    (hr : meaningful r s = true) : ∃ v, RegisterGives r s v ∧ hostRead r s = .ok v := by
  cases r
  case status | outLen => exact ⟨_, rfl, rfl⟩
  case outByte j =>
    obtain ⟨b, hb⟩ := hs.outOk.holds
    have ⟨hlen, _, hread⟩ := hb
    have hj : j < b.length := hlen ▸ of_decide_eq_true hr
    exact ⟨_, ⟨b[j], hread j hj, rfl⟩, hostRead_outByte_of_lt hb hj⟩
  case cnt m =>
    obtain ⟨hv, hn⟩ : s.status.cntV = true ∧ m < s.statistics.cntN := by
      simpa [meaningful] using hr
    have hm : m < s.statistics.cnt.length := hs.cntSize ▸ hn.trans_le (hs.cntCount hv)
    refine ⟨_, ⟨s.statistics.cnt[m], List.getElem?_eq_getElem hm, rfl⟩, ?_⟩
    rw [← List.getD_eq_getElem _ 0 hm]
    exact readWhen_true hr _ _
  case key | inByte | inLen | ctr => cases hr
  all_goals exact ⟨_, rfl, readWhen_true hr _ _⟩

/-- In a state of the invariant any other register gives a fault of the host program. -/
theorem hostRead_of_not_meaningful {r : HostReg} {s : State} (hs : EngineInv s)
    (hr : meaningful r s = false) :
    hostRead r s = .error (.notMeaningful r) ∨ hostRead r s = .error (.notReadable r) := by
  cases r
  case status | outLen => cases hr
  case outByte j =>
    obtain ⟨b, hb⟩ := hs.outOk.holds
    have hj : b.length ≤ j := hb.1 ▸ Nat.not_lt.1 (of_decide_eq_false hr)
    exact .inl (hostRead_outByte_of_ge hb hj)
  case key | inByte | inLen | ctr => exact .inr rfl
  all_goals exact .inl (readWhen_false hr _ _)

/-- Settles O55: a read answers what `hostRead` answers, which is the register's value or a fault as
the register is meaningful or not. -/
theorem readsGiveOnlyMeaningfulValues : Obligations.ReadsGiveOnlyMeaningfulValues := by
  intro s r hs
  split
  next hr =>
    obtain ⟨v, hv, h⟩ := hostRead_of_meaningful hs hr
    exact ⟨v, hv, hostReadReg_of_ok h⟩
  next hr =>
    exact (hostRead_of_not_meaningful hs (Bool.eq_false_iff.2 hr)).imp hostReadReg_of_error
      hostReadReg_of_error

end Sys2Proof.Machine
end

section
/-! Unspecified state (10_state R39, R41; 70_reset R245): two states that agree on what is specified
give every read the same value and every command the same bytes, so their next states agree again. -/

namespace Sys2Proof.Machine

/-- A run of bytes reads the same in two buffers that agree on its indices. -/
theorem Memory.readBytes_congr {m m' : Memory} {a n : Nat}
    (h : ∀ j, j < n → m.read (a + j) = m'.read (a + j)) : m.readBytes a n = m'.readBytes a n := by
  induction n generalizing a with
  | zero => rfl
  | succ k ih =>
    have hrest : m.readBytes (a + 1) k = m'.readBytes (a + 1) k :=
      ih fun j hj => by simpa [Nat.add_assoc, Nat.add_comm 1 j] using h (j + 1) (by omega)
    simp only [Memory.readBytes, hrest, show m.read a = m'.read a from h 0 (by omega)]

/-- The leading bytes of two buffers that agree below the length are the same. -/
theorem leadingBytes_congr (cap : Nat) {m m' : Memory} {n : Nat}
    (h : ∀ j, j < n → m.read j = m'.read j) : leadingBytes cap m n = leadingBytes cap m' n := by
  have hbytes : m.readBytes 0 n = m'.readBytes 0 n := Memory.readBytes_congr (by simpa using h)
  simp only [leadingBytes, hbytes]

/-- One byte string stored to two buffers reads the same below its length. -/
theorem read_writeBytes_congr (m m' : Memory) (b : List Byte) (j : Nat) (hj : j < b.length) :
    (m.writeBytes 0 b).read j = (m'.writeBytes 0 b).read j :=
  (stored_writeBytes m b j hj).trans (stored_writeBytes m' b j hj).symm

/-- A guarded read depends on its value only where the guard holds. -/
theorem readWhen_congr {ok ok' : Bool} {v v' : Reply} (hok : ok = ok') (hv : ok = true → v = v')
    (r : HostReg) : readWhen ok r v = readWhen ok' r v' := by
  subst hok
  cases ok with
  | false => rfl
  | true => rw [hv rfl]

/-- The same for a second guard that depends on the record only where the record is valid. -/
theorem readWhen_and_congr {ok ok' p p' : Bool} {v v' : Reply} (hok : ok = ok')
    (hp : ok = true → p = p') (hv : ok = true → p = true → v = v') (r : HostReg) :
    readWhen (ok && p) r v = readWhen (ok' && p') r v' := by
  subst hok
  cases ok with
  | false => rfl
  | true => exact readWhen_congr (hp rfl) (hv rfl) r

/-- Two identity records with the same present part differ at most in absent fields. -/
theorem eq_of_presentIdentity_eq {r r' : IdentityRecord}
    (h : presentIdentity r = presentIdentity r') :
    r' = { r with
      ver1 := if r.p1 then r.ver1 else r'.ver1
      ver2 := if r.p2 then r.ver2 else r'.ver2
      tablet := if r.p3 then r.tablet else r'.tablet } := by
  cases r
  cases r'
  simp only [presentIdentity, IdentityRecord.mk.injEq] at h ⊢
  grind

/-- A counter below CNT_N is one of the present counters. -/
theorem getD_presentCounters (r : StatisticsRecord) {m : Nat} (hm : m < r.cntN) :
    (presentCounters r).getD m 0 = r.cnt.getD m 0 := by
  simp [presentCounters, List.getD_eq_getElem?_getD, hm]

/-- The present part of the record DECID writes does not depend on the record before. -/
theorem presentIdentity_identityOf (l : IdLayout) (b : List Byte) (old old' : IdentityRecord) :
    presentIdentity (identityOf l b old) = presentIdentity (identityOf l b old') := by
  simp only [presentIdentity, identityOf, decide_eq_true_eq]
  split_ifs <;> rfl

/-- The counters DECSTAT writes are the groups of IN, whatever the record held before. -/
theorem presentCounters_statisticsOf (b : List Byte) (old : StatisticsRecord) :
    presentCounters (statisticsOf b old) = counterGroups b := by
  simp only [presentCounters, statisticsOf]
  rw [List.take_left' (length_counterGroups b)]

/-- A frame that holds the key nowhere does not depend on it. -/
theorem framedBytes_congr {p a : Bool} {k k' : Byte} (h : (p || a) = true → k = k')
    (b : List Byte) : framedBytes p a k b = framedBytes p a k' b := by
  cases hpa : p || a with
  | true => rw [h hpa]
  | false =>
    obtain ⟨rfl, rfl⟩ := Bool.or_eq_false_iff.1 hpa
    rfl

namespace SameVisible

variable {s t : State}

theorem keyV (h : SameVisible s t) : s.status.keyV = t.status.keyV := congrArg _ h.status
theorem idV (h : SameVisible s t) : s.status.idV = t.status.idV := congrArg _ h.status
theorem stV (h : SameVisible s t) : s.status.stV = t.status.stV := congrArg _ h.status
theorem prV (h : SameVisible s t) : s.status.prV = t.status.prV := congrArg _ h.status
theorem cntV (h : SameVisible s t) : s.status.cntV = t.status.cntV := congrArg _ h.status

theorem input (h : SameVisible s t) : s.input = t.input := by
  simp only [State.input, ← h.cfg, ← h.inLen]
  exact leadingBytes_congr _ h.inBytes

theorem output (h : SameVisible s t) : s.output = t.output := by
  simp only [State.output, ← h.cfg, ← h.outLen]
  exact leadingBytes_congr _ h.outBytes

/-! The named updates keep the relation. -/

theorem refl (s : State) : SameVisible s s where
  cfg := rfl
  inLen := rfl
  outLen := rfl
  status := rfl
  host := rfl
  reply := rfl
  key _ := rfl
  inBytes _ _ := rfl
  outBytes _ _ := rfl
  identity _ := rfl
  alerts _ := rfl
  progress _ := rfl
  statistics _ := ⟨rfl, rfl⟩

theorem finish (h : SameVisible s t) (e : Err) (op : Byte) :
    SameVisible (s.finish e op) (t.finish e op) :=
  { h with status := congrArg (statusAfter e op) h.status }

theorem answer (h : SameVisible s t) (v : Reply) : SameVisible (s.answer v) (t.answer v) :=
  { h with reply := rfl }

/-- STATUS is specified, so giving it back gives the same word. -/
theorem answerStatus (h : SameVisible s t) :
    SameVisible (s.answer (.status (statusWord s.status)))
      (t.answer (.status (statusWord t.status))) :=
  { h with reply := congrArg (fun st => Reply.status (statusWord st)) h.status }

theorem withHost (h : SameVisible s t) (a : List HostAction) :
    SameVisible (s.withHost a) (t.withHost a) := { h with host := rfl }

theorem setKey (h : SameVisible s t) (k : Byte) : SameVisible (s.setKey k) (t.setKey k) :=
  { h with
    status := congrArg (fun st : Status => { st with keyV := true }) h.status
    key := fun _ => rfl }

theorem runCounter (h : SameVisible s t) (n : Nat) : SameVisible (s.runCounter n) (t.runCounter n) :=
  { h with }

theorem setSa (h : SameVisible s t) (v : Bool) : SameVisible (s.setSa v) (t.setSa v) :=
  { h with status := congrArg (fun st : Status => { st with sa := v }) h.status }

theorem storeIn (h : SameVisible s t) (b : List Byte) : SameVisible (s.storeIn b) (t.storeIn b) :=
  { h with inLen := rfl, inBytes := read_writeBytes_congr _ _ b }

theorem storeOut (h : SameVisible s t) (b : List Byte) : SameVisible (s.storeOut b) (t.storeOut b) :=
  { h with outLen := rfl, outBytes := read_writeBytes_congr _ _ b }

theorem clearIdV (h : SameVisible s t) : SameVisible (s.setIdV false) (t.setIdV false) :=
  { h with
    status := congrArg (fun st : Status => { st with idV := false }) h.status
    identity := nofun }

theorem clearPrV (h : SameVisible s t) : SameVisible (s.setPrV false) (t.setPrV false) :=
  { h with
    status := congrArg (fun st : Status => { st with prV := false }) h.status
    progress := nofun }

theorem decodedIdentity (h : SameVisible s t) (l : IdLayout) (b : List Byte) :
    SameVisible ((s.setIdentity (identityOf l b s.identity)).setIdV true)
      ((t.setIdentity (identityOf l b t.identity)).setIdV true) :=
  { h with
    status := congrArg (fun st : Status => { st with idV := true }) h.status
    identity := fun _ => presentIdentity_identityOf l b _ _ }

theorem decodedAlerts (h : SameVisible s t) (r : AlertRecord) :
    SameVisible ((s.setAlerts r).setStV true) ((t.setAlerts r).setStV true) :=
  { h with
    status := congrArg (fun st : Status => { st with stV := true }) h.status
    alerts := fun _ => rfl }

theorem decodedProgress (h : SameVisible s t) (r : ProgressRecord) :
    SameVisible ((s.setProgress r).setPrV true) ((t.setProgress r).setPrV true) :=
  { h with
    status := congrArg (fun st : Status => { st with prV := true }) h.status
    progress := fun _ => rfl }

theorem decodedStatistics (h : SameVisible s t) (b : List Byte) :
    SameVisible ((s.setStatistics (statisticsOf b s.statistics)).setCntV true)
      ((t.setStatistics (statisticsOf b t.statistics)).setCntV true) :=
  { h with
    status := congrArg (fun st : Status => { st with cntV := true }) h.status
    statistics := fun _ =>
      ⟨rfl, (presentCounters_statisticsOf b _).trans (presentCounters_statisticsOf b _).symm⟩ }

/-! The shared operations that can stop stop alike. -/

theorem withInput (h : SameVisible s t) {R : State → State → Prop}
    {k k' : List Byte → Host.Outcome State Fault Refusal} (hk : ∀ b, SameOutcome R (k b) (k' b)) :
    SameOutcome R (s.withInput k) (t.withInput k') := by
  unfold State.withInput
  rw [← h.input]
  cases s.input with
  | ok b => exact hk b
  | error f => exact rfl

theorem withOutput (h : SameVisible s t) {R : State → State → Prop}
    {k k' : List Byte → Host.Outcome State Fault Refusal} (hk : ∀ b, SameOutcome R (k b) (k' b)) :
    SameOutcome R (s.withOutput k) (t.withOutput k') := by
  unfold State.withOutput
  rw [← h.output]
  cases s.output with
  | ok b => exact hk b
  | error f => exact rfl

theorem raise (h : SameVisible s t) (e : Err) (op : Byte) :
    SameOutcome SameVisible (s.raise e op) (t.raise e op) := h.finish e op

theorem produce (h : SameVisible s t) (op : Byte) (b : List Byte) :
    SameOutcome SameVisible (s.produce op b) (t.produce op b) := by
  unfold State.produce
  rw [← h.cfg]
  split
  · exact (h.storeOut b).finish .ok op
  · exact rfl

/-! Each command's outcomes agree. -/

theorem execKeyid (h : SameVisible s t) : SameOutcome SameVisible (execKeyid s) (execKeyid t) := by
  unfold Machine.execKeyid
  rw [← h.inLen, ← h.cfg]
  split
  · exact h.raise _ _
  · exact h.withInput fun b => (h.setKey _).finish _ _

/-- XFORM reads KEY only where KEY_V is set. -/
theorem execXform (h : SameVisible s t) (c : Bool) :
    SameOutcome SameVisible (execXform c s) (execXform c t) := by
  unfold Machine.execXform
  rw [← h.keyV, ← h.cfg]
  split
  · exact h.raise _ _
  next hk =>
    refine h.withInput fun b => ?_
    cases c with
    | false => exact h.produce _ b
    | true =>
      have hkey : s.key = t.key := h.key (by simpa using hk)
      rw [← hkey]
      exact (h.runCounter _).produce _ _

/-- FRAME reads KEY only for a form that needs it, and then only where KEY_V is set. -/
theorem execFrame (h : SameVisible s t) (c p a : Bool) :
    SameOutcome SameVisible (execFrame c p a s) (execFrame c p a t) := by
  unfold Machine.execFrame
  rw [← h.keyV, ← h.cfg, ← h.inLen]
  split
  · exact h.raise _ _
  split
  · exact h.raise _ _
  next hk =>
    have hkey : (c || p || a) = true → s.key = t.key := fun hn => h.key (by simpa [hn] using hk)
    split
    · exact h.raise _ _
    refine h.withInput fun b => ?_
    have hframed : framedBytes p a s.key b = framedBytes p a t.key b :=
      framedBytes_congr (fun hn => hkey (by rw [Bool.or_assoc, hn, Bool.or_true])) b
    rw [← hframed]
    cases c with
    | false => exact h.produce _ _
    | true =>
      rw [← hkey rfl]
      exact (h.runCounter _).produce _ _

theorem execDecid (h : SameVisible s t) : SameOutcome SameVisible (execDecid s) (execDecid t) := by
  unfold Machine.execDecid
  rw [← h.inLen, ← h.cfg]
  split
  · exact h.clearIdV.raise _ _
  · exact h.withInput fun b => (h.decodedIdentity _ b).finish _ _

theorem execDecst (h : SameVisible s t) : SameOutcome SameVisible (execDecst s) (execDecst t) := by
  unfold Machine.execDecst
  rw [← h.cfg]
  exact h.withInput fun b => (h.decodedAlerts _).finish _ _

theorem execDecpr (h : SameVisible s t) : SameOutcome SameVisible (execDecpr s) (execDecpr t) := by
  unfold Machine.execDecpr
  rw [← h.inLen, ← h.cfg]
  split
  · exact h.clearPrV.raise _ _
  · exact h.withInput fun b => (h.decodedProgress _).finish _ _

theorem execStchk (h : SameVisible s t) : SameOutcome SameVisible (execStchk s) (execStchk t) := by
  unfold Machine.execStchk
  rw [← h.inLen]
  split
  · exact (h.setSa false).raise _ _
  refine h.withInput fun b => ?_
  split
  · exact (h.setSa false).raise _ _
  · exact (h.setSa true).finish _ _

theorem execEncpr (h : SameVisible s t) : SameOutcome SameVisible (execEncpr s) (execEncpr t) := by
  unfold Machine.execEncpr
  rw [← h.inLen]
  split
  · exact h.raise _ _
  refine h.withInput fun b => ?_
  split
  · exact h.produce _ _
  · exact h.raise _ _

theorem execKeepalive (h : SameVisible s t) :
    SameOutcome SameVisible (execKeepalive s) (execKeepalive t) := by
  unfold Machine.execKeepalive
  rw [← h.cfg]
  exact h.produce _ _

/-- Every command answers related states the same stop or related states. -/
theorem exec (h : SameVisible s t) (i : Instr) : SameOutcome SameVisible (exec i s) (exec i t) := by
  cases i with
  | nop => exact h.finish _ _
  | setkey k => exact (h.setKey k).finish _ _
  | keyid => exact h.execKeyid
  | mov => exact h.withOutput fun b => (h.storeIn b).finish _ _
  | xform c => exact h.execXform c
  | frame c p a => exact h.execFrame c p a
  | decid => exact h.execDecid
  | decst => exact h.execDecst
  | decpr => exact h.execDecpr
  | decstat => exact h.withInput fun b => (h.decodedStatistics b).finish _ _
  | stchk => exact h.execStchk
  | encpr => exact h.execEncpr
  | stsel m => exact h.produce _ _
  | barista l => exact h.produce _ _
  | keepalive => exact h.execKeepalive

/-! Each action of the host, too. -/

theorem issueWord (h : SameVisible s t) (w : CommandWord) :
    SameOutcome SameVisible (issueWord w s) (issueWord w t) := by
  unfold Machine.issueWord
  cases decode w with
  | error e => exact (h.finish _ _).answerStatus
  | ok i =>
    have hout := h.exec i
    dsimp only
    cases hs : Machine.exec i s <;> cases ht : Machine.exec i t <;> rw [hs, ht] at hout
    case next.next => exact SameVisible.answerStatus hout
    case fault.fault | refused.refused => exact hout
    all_goals exact hout.elim

theorem hostLoad (h : SameVisible s t) (b : List Byte) :
    SameOutcome SameVisible (hostLoad b s) (hostLoad b t) := by
  unfold Machine.hostLoad
  rw [← h.cfg]
  split
  · exact (h.storeIn b).answer _
  · exact rfl

theorem hostRead (h : SameVisible s t) (r : HostReg) : hostRead r s = hostRead r t := by
  cases r
  case status => simp only [Machine.hostRead, h.status]
  case outLen => simp only [Machine.hostRead, h.outLen]
  case outByte j => simp only [Machine.hostRead, h.output]
  case alertRaw | alert => exact readWhen_congr h.stV (fun hv => by rw [h.alerts hv]) _
  case cntN => exact readWhen_congr h.cntV (fun hv => by rw [(h.statistics hv).1]) _
  case cnt m =>
    refine readWhen_and_congr h.cntV (fun hv => by rw [(h.statistics hv).1]) (fun hv hm => ?_) _
    obtain ⟨hn, hcnt⟩ := h.statistics hv
    have hm : m < s.statistics.cntN := of_decide_eq_true hm
    rw [← getD_presentCounters _ hm, hcnt, getD_presentCounters _ (hn ▸ hm)]
  case idVer1 | idVer2 | idTablet =>
    refine readWhen_and_congr h.idV (fun hv => ?_) (fun hv hp => ?_) _
    · rw [eq_of_presentIdentity_eq (h.identity hv)]
    · rw [eq_of_presentIdentity_eq (h.identity hv)]
      simp only [hp, if_true]
  case key | inByte | inLen | ctr => rfl
  case prState | prProduct | prStrengthCur | prStrengthMax | prWaterCur | prWaterMax | prMilkTimeCur |
      prMilkTimeMax | prFoamCur | prFoamMax | prTempMax | prPauseMax | prIntake | prFlagRaw |
      prValid =>
    exact readWhen_congr h.prV (fun hv => by rw [h.progress hv]) _
  all_goals
    exact readWhen_congr h.idV (fun hv => by rw [eq_of_presentIdentity_eq (h.identity hv)]) _

theorem hostReadReg (h : SameVisible s t) (r : HostReg) :
    SameOutcome SameVisible (hostReadReg r s) (hostReadReg r t) := by
  unfold Machine.hostReadReg
  rw [← h.hostRead r]
  cases Machine.hostRead r s with
  | ok v => exact h.answer v
  | error f => exact rfl

theorem hostStep (h : SameVisible s t) (a : HostAction) :
    SameOutcome SameVisible (hostStep a s) (hostStep a t) := by
  cases a with
  | load b => exact h.hostLoad b
  | command w => exact h.issueWord w
  | fetch => exact h.withOutput fun b => h.answer _
  | readReg r => exact h.hostReadReg r
  | writeStatus v => exact h.answer _
  | reset =>
    simp only [Machine.hostStep, ← h.cfg, ← h.host]
    exact refl _

end SameVisible

/-- Settles O57: the step is refused alike, idle alike, or the same host action from related states,
which answers alike (`SameVisible.hostStep`). -/
theorem unspecifiedStateNeverMatters : Obligations.UnspecifiedStateNeverMatters := by
  intro s t h
  unfold step nextStep
  rw [← h.cfg, ← h.host]
  split
  · cases s.host with
    | nil => exact h
    | cons a rest => exact (h.withHost rest).hostStep a
  · exact rfl

end Sys2Proof.Machine
end

section
/-! Every command completes (20_memory R60, 60_exceptions R221): in a state of the invariant the bytes a
command reads are there, and the bytes it produces fit, so it answers a next state. -/

namespace Sys2Proof.Machine

/-- A configuration that passes its checks has buffers of at least 56 bytes (00_scope R8). -/
theorem bufBytes_of_configValid {c : Config} (h : configValid c = true) : 56 ≤ c.bufBytes := by
  simp only [configValid, Bool.and_eq_true, decide_eq_true_eq] at h
  obtain ⟨⟨⟨⟨-, hbuf⟩, -⟩, -⟩, -⟩ := h
  exact hbuf

theorem length_transformFrom (c : Config) (key : Byte) (j : Nat) (b : List Byte) :
    (transformFrom c key j b).length = b.length := by
  induction b generalizing j with
  | nil => rfl
  | cons x rest ih => simp only [transformFrom, List.length_cons, ih]

@[simp] theorem length_transform (c : Config) (key : Byte) (b : List Byte) :
    (transform c key b).length = b.length := length_transformFrom c key 0 b

@[simp] theorem length_framedBytes (p a : Bool) (key : Byte) (b : List Byte) :
    (framedBytes p a key b).length = b.length + p.toNat + a.toNat := by
  cases p <;> cases a <;> simp [framedBytes]

/-- Setting entries of a list one after the other keeps its length. -/
theorem length_foldl_set (pairs : List (Byte × Byte)) (r : List Byte) :
    (pairs.foldl (fun r p => r.set (p.1.toNat - 1) p.2) r).length = r.length := by
  induction pairs generalizing r with
  | nil => rfl
  | cons p rest ih => rw [List.foldl_cons, ih, List.length_set]

@[simp] theorem length_brewBytes (code : Byte) (pairs : List (Byte × Byte)) :
    (brewBytes code pairs).length = 15 := length_foldl_set pairs _

theorem length_selectorBytes (m : StatsKind) : (selectorBytes m).length = 4 := by cases m <;> rfl

theorem length_lockBytes (l : LockAction) : (lockBytes l).length = 1 := by cases l <;> rfl

theorem produce_completes {s : State} {b : List Byte} (op : Byte) (hb : b.length ≤ s.cfg.bufBytes) :
    ∃ t, s.produce op b = .next t := ⟨_, produce_of_fits op hb⟩

section

variable {s : State} (h : EngineInv s)
include h

theorem withInput_completes {k : List Byte → Host.Outcome State Fault Refusal}
    (hk : ∀ b, InHolds s b → ∃ t, k b = .next t) : ∃ t, s.withInput k = .next t := by
  obtain ⟨b, hb⟩ := h.inOk.holds
  rw [withInput_of_holds hb]
  exact hk b hb

theorem withOutput_completes {k : List Byte → Host.Outcome State Fault Refusal}
    (hk : ∀ b, OutHolds s b → ∃ t, k b = .next t) : ∃ t, s.withOutput k = .next t := by
  obtain ⟨b, hb⟩ := h.outOk.holds
  rw [withOutput_of_holds hb]
  exact hk b hb

/-- A payload of at most 56 bytes fits under every accepted configuration. -/
theorem produce_completes_of_le {b : List Byte} (op : Byte) (hb : b.length ≤ 56) :
    ∃ t, s.produce op b = .next t :=
  produce_completes op (hb.trans (bufBytes_of_configValid h.config))

theorem execKeyid_completes : ∃ t, execKeyid s = .next t := by
  unfold execKeyid
  split
  · exact ⟨_, rfl⟩
  · exact withInput_completes h fun b _ => ⟨_, rfl⟩

/-- The transform gives as many bytes as IN holds, so they fit in OUT. -/
theorem execXform_completes (c : Bool) : ∃ t, execXform c s = .next t := by
  unfold execXform
  split
  · exact ⟨_, rfl⟩
  refine withInput_completes h fun b ⟨_, hfit, _⟩ => ?_
  cases c with
  | false => exact produce_completes _ hfit
  | true => exact produce_completes _ ((length_transform ..).trans_le hfit)

/-- The framed payload fits in OUT: one that does not ends in OVERFLOW before. -/
theorem execFrame_completes (c p a : Bool) : ∃ t, execFrame c p a s = .next t := by
  unfold execFrame
  split
  · exact ⟨_, rfl⟩
  split
  · exact ⟨_, rfl⟩
  split
  · exact ⟨_, rfl⟩
  next hroom =>
    refine withInput_completes h fun b ⟨hlen, _, _⟩ => ?_
    have hfit : (framedBytes p a s.key b).length ≤ s.cfg.bufBytes := by
      rw [length_framedBytes, ← hlen]
      exact not_lt.1 hroom
    cases c with
    | false => exact produce_completes _ hfit
    | true => exact produce_completes _ ((length_transform ..).trans_le hfit)

theorem execDecid_completes : ∃ t, execDecid s = .next t := by
  unfold execDecid
  split
  · exact ⟨_, rfl⟩
  · exact withInput_completes h fun b _ => ⟨_, rfl⟩

theorem execDecpr_completes : ∃ t, execDecpr s = .next t := by
  unfold execDecpr
  split
  · exact ⟨_, rfl⟩
  · exact withInput_completes h fun b _ => ⟨_, rfl⟩

theorem execStchk_completes : ∃ t, execStchk s = .next t := by
  unfold execStchk
  split
  · exact ⟨_, rfl⟩
  refine withInput_completes h fun b _ => ?_
  split
  · exact ⟨_, rfl⟩
  · exact ⟨_, rfl⟩

theorem execEncpr_completes : ∃ t, execEncpr s = .next t := by
  unfold execEncpr
  split
  · exact ⟨_, rfl⟩
  refine withInput_completes h fun b _ => ?_
  split
  · exact produce_completes_of_le h _ (by simp)
  · exact ⟨_, rfl⟩

end

/-- Settles O25: a failure always answers a next state; a command that reads a buffer finds its bytes
there, since the buffer is in order; what a producer writes fits, as it is no longer than IN, was checked
by FRAME, or is a payload of at most 15 bytes. -/
theorem everyCommandCompletes : Obligations.EveryCommandCompletes := by
  intro i s h
  cases i with
  | nop | setkey => exact ⟨_, rfl⟩
  | keyid => exact execKeyid_completes h
  | mov => exact withOutput_completes h fun b _ => ⟨_, rfl⟩
  | xform c => exact execXform_completes h c
  | frame c p a => exact execFrame_completes h c p a
  | decid => exact execDecid_completes h
  | decst | decstat => exact withInput_completes h fun b _ => ⟨_, rfl⟩
  | decpr => exact execDecpr_completes h
  | stchk => exact execStchk_completes h
  | encpr => exact execEncpr_completes h
  | stsel m => exact produce_completes_of_le h _ (by rw [length_selectorBytes]; decide)
  | barista l => exact produce_completes_of_le h _ (by rw [length_lockBytes]; decide)
  | keepalive => exact produce_completes_of_le h _ (by simp)

end Sys2Proof.Machine
end

section
/-! The decoder and the encoder (30_encoding R71 to R79): the two halves of a word, and of `decode` the
words it accepts, each from one command, and the words it rejects. -/

namespace Sys2Proof.Machine
open Sys2Proof.Laws.OpcodeRowOfWord (op_of_encode)

theorem toNat_opOf (w : CommandWord) : (opOf w).toNat = w.toNat / 256 := by
  rw [opOf, BitVec.extractLsb'_toNat, Nat.shiftRight_eq_div_pow]
  omega

theorem toNat_argOf (w : CommandWord) : (argOf w).toNat = w.toNat % 256 := by
  rw [argOf, BitVec.extractLsb'_toNat, Nat.shiftRight_zero]

/-- A word is its two halves. -/
theorem eq_of_opOf_of_argOf {w v : CommandWord} (hop : opOf w = opOf v) (harg : argOf w = argOf v) :
    w = v := by
  have hop : w.toNat / 256 = v.toNat / 256 := by rw [← toNat_opOf, ← toNat_opOf, hop]
  have harg : w.toNat % 256 = v.toNat % 256 := by rw [← toNat_argOf, ← toNat_argOf, harg]
  exact BitVec.eq_of_toNat_eq (by omega)

theorem argOf_encode (i : Instr) : argOf (encode i) = argument i := by
  unfold argOf encode
  ext j hj
  simp [hj, show j < 16 by omega]

theorem encode_eq_iff {i : Instr} {w : CommandWord} :
    encode i = w ↔ opcode i = opOf w ∧ argument i = argOf w := by
  rw [← op_of_encode, ← argOf_encode]
  exact ⟨by rintro rfl; exact ⟨rfl, rfl⟩, fun ⟨hop, harg⟩ => eq_of_opOf_of_argOf hop harg⟩

theorem toNat_flagArg (b : Bool) : (flagArg b).toNat = b.toNat := by cases b <;> rfl

theorem toNat_argument_frame (c p a : Bool) :
    (argument (.frame c p a)).toNat = c.toNat + 2 * p.toNat + 4 * a.toNat := by
  cases c <;> cases p <;> cases a <;> rfl

/-- Bit `j` of a byte, as a number. -/
theorem toNat_getLsbD (x : Byte) (j : Nat) : (x.getLsbD j).toNat = x.toNat / 2 ^ j % 2 :=
  Nat.toNat_testBit x.toNat j

/-- The bits of a byte from `k` up are 0 exactly when the byte is below `2 ^ k`. -/
theorem extractLsb'_eq_zero_iff (x : Byte) {k n : Nat} (h : k + n = 8) :
    x.extractLsb' k n = 0#n ↔ x.toNat < 2 ^ k := by
  have hlt : x.toNat / 2 ^ k < 2 ^ n :=
    Nat.div_lt_of_lt_mul (by rw [← pow_add, h]; exact x.isLt)
  rw [← BitVec.toNat_inj, BitVec.extractLsb'_toNat, Nat.shiftRight_eq_div_pow,
    Nat.mod_eq_of_lt hlt, BitVec.toNat_zero, Nat.div_eq_zero_iff]
  simp

/-! Each shape of ARG (R74): what it accepts. -/

theorem decodePlain_eq_ok_iff {j i : Instr} {op arg : Byte} :
    decodePlain j op arg = .ok i ↔ i = j ∧ arg = 0x00#8 := by
  unfold decodePlain
  split
  next h => simp [h, eq_comm]
  next h => simp [h]

theorem decodeFlag_eq_ok_iff {mk : Bool → Instr} {i : Instr} {op arg : Byte} :
    decodeFlag mk op arg = .ok i ↔ ∃ b, i = mk b ∧ arg = flagArg b := by
  constructor
  · intro h
    unfold decodeFlag at h
    split at h
    next harg =>
      rw [extractLsb'_eq_zero_iff arg rfl] at harg
      refine ⟨arg.getLsbD 0, by cases h; rfl, BitVec.eq_of_toNat_eq ?_⟩
      rw [toNat_flagArg, toNat_getLsbD]
      omega
    next => cases h
  · rintro ⟨b, rfl, rfl⟩
    cases b <;> rfl

theorem decodeFrame_eq_ok_iff {i : Instr} {op arg : Byte} :
    decodeFrame op arg = .ok i ↔
      ∃ c p a, i = .frame c p a ∧ (p && a) = false ∧ arg = argument (.frame c p a) := by
  constructor
  · intro h
    unfold decodeFrame at h
    split at h
    next harg =>
      rw [extractLsb'_eq_zero_iff arg rfl] at harg
      split at h
      next => cases h
      next hpa =>
        refine ⟨arg.getLsbD 0, arg.getLsbD 1, arg.getLsbD 2, by cases h; rfl,
          by rwa [Bool.not_eq_true, Bool.and_comm] at hpa, BitVec.eq_of_toNat_eq ?_⟩
        rw [toNat_argument_frame, toNat_getLsbD, toNat_getLsbD, toNat_getLsbD]
        omega
    next => cases h
  · rintro ⟨c, p, a, rfl, hpa, rfl⟩
    obtain rfl | rfl := Bool.and_eq_false_iff.1 hpa
    · cases c <;> cases a <;> rfl
    · cases c <;> cases p <;> rfl

/-- The ARG of a word that decodes is that of the command, which is well-formed (R74, R79). -/
theorem wellFormed_argument_of_decode {w : CommandWord} {i : Instr} (h : decode w = .ok i) :
    WellFormed i = true ∧ argument i = argOf w := by
  simp only [decode] at h
  split at h
  case h_2 => cases h; exact ⟨rfl, rfl⟩
  case h_5 | h_13 | h_14 =>
    obtain ⟨b, rfl, harg⟩ := decodeFlag_eq_ok_iff.1 h
    exact ⟨rfl, by cases b <;> exact harg.symm⟩
  case h_6 =>
    obtain ⟨c, p, a, rfl, hpa, harg⟩ := decodeFrame_eq_ok_iff.1 h
    exact ⟨by simp [WellFormed, hpa], harg.symm⟩
  case h_16 => cases h
  all_goals
    obtain ⟨rfl, harg⟩ := decodePlain_eq_ok_iff.1 h
    exact ⟨rfl, harg.symm⟩

/-- The word of a well-formed command decodes to it (R79). -/
theorem decode_encode {i : Instr} (h : WellFormed i = true) : decode (encode i) = .ok i := by
  simp only [decode, op_of_encode, argOf_encode]
  cases i with
  | setkey => rfl
  | xform c => exact decodeFlag_eq_ok_iff.2 ⟨c, rfl, rfl⟩
  | frame c p a =>
    rw [WellFormed, Bool.not_eq_true'] at h
    exact decodeFrame_eq_ok_iff.2 ⟨c, p, a, rfl, h, rfl⟩
  | stsel m => cases m <;> rfl
  | barista l => cases l <;> rfl
  | _ => exact decodePlain_eq_ok_iff.2 ⟨rfl, rfl⟩

/-- A word decodes exactly to the well-formed command whose word it is. -/
theorem decode_eq_ok_iff {w : CommandWord} {i : Instr} :
    decode w = .ok i ↔ WellFormed i = true ∧ encode i = w := by
  constructor
  · intro h
    obtain ⟨hwf, harg⟩ := wellFormed_argument_of_decode h
    exact ⟨hwf, encode_eq_iff.2 ⟨opcode_of_decode h, harg⟩⟩
  · rintro ⟨hwf, rfl⟩
    exact decode_encode hwf

/-- Settles O1: `decode_encode`. -/
theorem decodeOfEncode : Obligations.DecodeOfEncode := fun _ => decode_encode

/-- Settles O2: `decode_eq_ok_iff`, from left to right. -/
theorem encodeOfDecode : Obligations.EncodeOfDecode := fun _ _ => decode_eq_ok_iff.1

/-! The words `decode` rejects. -/

/-- How many values of ARG are legal under an OP: those below this number (R75, R76, R79). -/
def legalArgs (op : Nat) : Nat :=
  match op with
  | 0x00 | 0x02 | 0x03 | 0x20 | 0x21 | 0x22 | 0x23 | 0x24 | 0x30 | 0x33 => 1
  | 0x01 => 256
  | 0x10 | 0x31 | 0x32 => 2
  | 0x11 => 6
  | _ => 0

theorem illegalWord_iff (w : CommandWord) :
    illegalWord w = true ↔ legalArgs (opOf w).toNat ≤ (argOf w).toNat := by
  simp only [illegalWord, ← toNat_opOf, ← toNat_argOf]
  unfold legalArgs
  split
  case h_11 hop => simpa [hop] using (argOf w).isLt
  case h_16 => simp_all
  all_goals
    rename_i hop
    simp [hop, Nat.one_le_iff_ne_zero]

/-- FRAME's ARG has P = A = 1 exactly when it is 6 or 7, its reserved bits being 0 (R76). -/
theorem keyFirstAndLast_iff {arg : Byte} (h : arg.toNat < 8) :
    (arg.getLsbD 2 && arg.getLsbD 1) = true ↔ 6 ≤ arg.toNat := by
  rw [Bool.and_eq_true, ← Bool.toNat_eq_one, ← Bool.toNat_eq_one, toNat_getLsbD, toNat_getLsbD]
  omega

/-! Each shape of ARG: what it rejects. -/

theorem decodePlain_eq_error_iff {j : Instr} {op arg : Byte} :
    (∃ e, decodePlain j op arg = .error e) ↔ 1 ≤ arg.toNat := by
  unfold decodePlain
  split
  next h => exact iff_of_false nofun (by simp [h])
  next h =>
    refine iff_of_true ⟨_, rfl⟩ (Nat.one_le_iff_ne_zero.2 fun h0 => ?_)
    exact h (BitVec.eq_of_toNat_eq h0)

theorem decodeFlag_eq_error_iff {mk : Bool → Instr} {op arg : Byte} :
    (∃ e, decodeFlag mk op arg = .error e) ↔ 2 ≤ arg.toNat := by
  unfold decodeFlag
  split
  next h =>
    rw [extractLsb'_eq_zero_iff arg rfl] at h
    exact iff_of_false nofun (not_le.2 h)
  next h =>
    rw [extractLsb'_eq_zero_iff arg rfl] at h
    exact iff_of_true ⟨_, rfl⟩ (not_lt.1 h)

theorem decodeFrame_eq_error_iff {op arg : Byte} :
    (∃ e, decodeFrame op arg = .error e) ↔ 6 ≤ arg.toNat := by
  unfold decodeFrame
  split
  next h =>
    rw [extractLsb'_eq_zero_iff arg rfl] at h
    rw [← keyFirstAndLast_iff h]
    split
    next hpa => exact iff_of_true ⟨_, rfl⟩ hpa
    next hpa => exact iff_of_false nofun hpa
  next h =>
    rw [extractLsb'_eq_zero_iff arg rfl] at h
    exact iff_of_true ⟨_, rfl⟩ (by omega)

theorem decode_eq_error_iff (w : CommandWord) :
    (∃ e, decode w = .error e) ↔ legalArgs (opOf w).toNat ≤ (argOf w).toNat := by
  simp only [decode]
  unfold legalArgs
  split
  case h_2 hop => simpa [hop] using (argOf w).isLt
  case h_5 hop | h_13 hop | h_14 hop => rw [hop]; exact decodeFlag_eq_error_iff
  case h_6 hop => rw [hop]; exact decodeFrame_eq_error_iff
  case h_16 => simp [*]
  all_goals
    rename_i hop
    rw [hop]
    exact decodePlain_eq_error_iff

/-- Settles O4: the rules and the decoder both call a word illegal exactly when its ARG is none of the
`legalArgs` of its OP. -/
theorem decodeRejectsExactlyIllegalWords : Obligations.DecodeRejectsExactlyIllegalWords :=
  fun w => (illegalWord_iff w).trans (decode_eq_error_iff w).symm

end Sys2Proof.Machine
end

section
/-! How many words are legal (30_encoding R79), and some of them written out. -/

namespace Sys2Proof.Machine

/-- A word decodes exactly when its ARG is a legal one of its OP. -/
theorem exists_decode_iff (w : CommandWord) :
    (∃ i, decode w = .ok i) ↔ (argOf w).toNat < legalArgs (opOf w).toNat := by
  rw [← not_le, ← decode_eq_error_iff]
  cases decode w <;> simp

theorem decodeTableWord_isSome_iff {op arg : Nat} (hop : op < 256) (harg : arg < 256) :
    (decodeTableWord 16 (256 * op + arg)).isSome = true ↔ arg < legalArgs op := by
  have hw : (tableWord 16 (256 * op + arg)).toNat = 256 * op + arg := by
    rw [tableWord, BitVec.toNat_setWidth, BitVec.toNat_ofNat]
    omega
  have hopOf : (opOf (tableWord 16 (256 * op + arg))).toNat = op := by
    rw [toNat_opOf, hw]
    omega
  have hargOf : (argOf (tableWord 16 (256 * op + arg))).toNat = arg := by
    rw [toNat_argOf, hw]
    omega
  have h := exists_decode_iff (tableWord 16 (256 * op + arg))
  rw [hopOf, hargOf] at h
  rw [← h, decodeTableWord]
  cases decode (tableWord 16 (256 * op + arg)) <;> simp

theorem legalArgs_le (op : Nat) : legalArgs op ≤ 256 := by
  unfold legalArgs
  split <;> decide

/-- No OP above 0x33 is assigned. -/
theorem legalArgs_eq_zero {op : Nat} (h : 52 ≤ op) : legalArgs op = 0 := by
  unfold legalArgs
  split
  case h_16 => rfl
  all_goals omega

theorem length_legal_words {op : Nat} (hop : op < 256) :
    ((List.range 256).filter fun arg => (decodeTableWord 16 (256 * op + arg)).isSome).length
      = legalArgs op := by
  have h : ∀ arg ∈ List.range 256,
      (decodeTableWord 16 (256 * op + arg)).isSome = decide (arg < legalArgs op) := fun arg harg =>
    Bool.eq_iff_iff.2 (by
      rw [decodeTableWord_isSome_iff hop (List.mem_range.1 harg), decide_eq_true_iff])
  rw [List.filter_congr h, ← List.Ico.zero_bot, List.Ico.filter_lt, List.Ico.length,
    min_eq_right (legalArgs_le op), Nat.sub_zero]

/-- Settles O5: an OP has as many legal words as `legalArgs` says, which is none above 0x33. -/
theorem legalWordsAre278 : Obligations.LegalWordsAre278 := by
  unfold Obligations.LegalWordsAre278
  calc
    _ = ((List.range 256).map legalArgs).sum := by
      rw [List.map_congr_left fun op hop => length_legal_words (List.mem_range.1 hop)]
    _ = ((List.range 52).map legalArgs).sum := by
      rw [show 256 = 52 + 204 from rfl, List.range_add, List.map_append, List.sum_append,
        List.map_map, List.sum_eq_zero (l := List.map _ (List.range 204)), Nat.add_zero]
      simp [legalArgs_eq_zero]
    _ = 278 := rfl

/-- Settles O6: eight closed words, evaluated. -/
theorem sampleWordsDecode : Obligations.SampleWordsDecode := by
  unfold Obligations.SampleWordsDecode
  decide

end Sys2Proof.Machine
end

section
/-! The rows of opcode_table.json and the decoder (30_encoding R72): a word is covered by one row at
most, the one of its OP, and then decodes; a word that decodes is covered by its command's row. -/

namespace Sys2Proof.Machine

theorem opcodeRowOfWord (i : Instr) : Laws.OpcodeRowOfWord.Statement i := by
  cases i with
  | nop => exact Laws.OpcodeRowOfWord.nop
  | setkey k => exact Laws.OpcodeRowOfWord.setkey k
  | keyid => exact Laws.OpcodeRowOfWord.keyid
  | mov => exact Laws.OpcodeRowOfWord.mov
  | xform c => exact Laws.OpcodeRowOfWord.xform c
  | frame c p a => exact Laws.OpcodeRowOfWord.frame c p a
  | decid => exact Laws.OpcodeRowOfWord.decid
  | decst => exact Laws.OpcodeRowOfWord.decst
  | decpr => exact Laws.OpcodeRowOfWord.decpr
  | decstat => exact Laws.OpcodeRowOfWord.decstat
  | stchk => exact Laws.OpcodeRowOfWord.stchk
  | encpr => exact Laws.OpcodeRowOfWord.encpr
  | stsel m => exact Laws.OpcodeRowOfWord.stsel m
  | barista l => exact Laws.OpcodeRowOfWord.barista l
  | keepalive => exact Laws.OpcodeRowOfWord.keepalive

/-- A word that decodes is covered by the row of its command. -/
theorem exists_row_of_decode {w : CommandWord} {i : Instr} (h : decode w = .ok i) :
    ∃ r ∈ opcodeTable, r.mnemonic = mnemonic i ∧ r.covers w = true := by
  obtain ⟨hwf, rfl⟩ := decode_eq_ok_iff.1 h
  exact (opcodeRowOfWord i).2 hwf

theorem row_eq_of_mnemonic_eq {r r' : OpcodeRow} (hr : r ∈ opcodeTable) (hr' : r' ∈ opcodeTable)
    (h : r.mnemonic = r'.mnemonic) : r = r' :=
  List.inj_on_of_nodup_map (f := OpcodeRow.mnemonic) (by decide) hr hr' h

theorem opOf_mask {r : OpcodeRow} (hr : r ∈ opcodeTable) : opOf r.mask = BitVec.allOnes 8 := by
  have h : ∀ r ∈ opcodeTable, opOf r.mask = BitVec.allOnes 8 := by decide
  exact h r hr

theorem masked_of_covers {r : OpcodeRow} {w : CommandWord} (h : r.covers w = true) :
    w &&& r.mask = r.bits := by
  rw [OpcodeRow.covers, Bool.and_eq_true, beq_iff_eq] at h
  exact h.1

theorem opOf_of_covers {r : OpcodeRow} {w : CommandWord} (hr : r ∈ opcodeTable)
    (h : r.covers w = true) : opOf w = opOf r.bits := by
  calc opOf w = opOf w &&& opOf r.mask := by rw [opOf_mask hr, BitVec.and_allOnes]
    _ = opOf (w &&& r.mask) := BitVec.extractLsb'_and.symm
    _ = opOf r.bits := by rw [masked_of_covers h]

theorem row_eq_of_covers {r r' : OpcodeRow} {w : CommandWord} (hr : r ∈ opcodeTable)
    (hr' : r' ∈ opcodeTable) (h : r.covers w = true) (h' : r'.covers w = true) : r = r' := by
  have hnodup : (opcodeTable.map fun r => opOf r.bits).Nodup := by decide
  refine List.inj_on_of_nodup_map hnodup hr hr' ?_
  rw [← opOf_of_covers hr h, ← opOf_of_covers hr' h']

/-- A covered word is the row's bits with some of the bits its mask leaves free. -/
theorem eq_bits_or_of_covers {r : OpcodeRow} {w : CommandWord} (h : r.covers w = true) :
    ∃ d ≤ (~~~r.mask).toNat, w = r.bits ||| BitVec.ofNat 16 d := by
  refine ⟨(w &&& ~~~r.mask).toNat, Nat.and_le_right, ?_⟩
  rw [BitVec.ofNat_toNat, BitVec.setWidth_eq, ← masked_of_covers h, ← BitVec.and_or_distrib_left,
    BitVec.or_not_self, BitVec.and_allOnes]

/-- Of a row's words: SETKEY's may have any ARG, and any other row has at most 8, whose ARG is legal. -/
theorem covered_args : ∀ r ∈ opcodeTable, legalArgs (opOf r.bits).toNat = 256 ∨
    ∀ d ≤ (~~~r.mask).toNat, r.covers (r.bits ||| BitVec.ofNat 16 d) = true →
      (argOf (r.bits ||| BitVec.ofNat 16 d)).toNat < legalArgs (opOf r.bits).toNat := by decide

theorem decode_of_covers {r : OpcodeRow} {w : CommandWord} (hr : r ∈ opcodeTable)
    (h : r.covers w = true) : ∃ i, decode w = .ok i := by
  rw [exists_decode_iff, opOf_of_covers hr h]
  obtain ⟨d, hd, rfl⟩ := eq_bits_or_of_covers h
  obtain hset | hfew := covered_args r hr
  · rw [hset]
    exact BitVec.isLt _
  · exact hfew d hd h

/-- Settles O3: a covered word decodes (`decode_of_covers`) and is covered by its command's row
(`exists_row_of_decode`), which is the row in hand, as rows are told apart by OP and by mnemonic. -/
theorem decodeFollowsOpcodeTable : Obligations.DecodeFollowsOpcodeTable := by
  intro w r hr
  constructor
  · intro hw
    obtain ⟨i, hi⟩ := decode_of_covers hr hw
    obtain ⟨r', hr', hname, hw'⟩ := exists_row_of_decode hi
    exact ⟨i, hi, by rw [row_eq_of_covers hr hr' hw hw', hname]⟩
  · rintro ⟨i, hi, hname⟩
    obtain ⟨r', hr', hname', hw'⟩ := exists_row_of_decode hi
    rwa [row_eq_of_mnemonic_eq hr hr' (hname.symm.trans hname'.symm)]

end Sys2Proof.Machine
end

section
/-! What a command word does, forward (30_encoding R70, R75, R76): a rejected word ends in ILLEGAL, a
word that decodes runs its command, and a stop of the command is a stop of the step. -/

namespace Sys2Proof.Machine

theorem finish_of_fault {e : Err} (he : isFault e = true) (s : State) (op : Byte) :
    s.finish e op = { s with status := faultStatus s.status e op } := by
  rw [State.finish, State.setStatus, statusAfter_fault he]

theorem issueWord_of_reject {w : CommandWord} {e : DecodeReject} (hd : decode w = .error e)
    (s : State) : issueWord w s = .next ((s.finish .illegal (opOf w)).answer
      (.status (statusWord (s.finish .illegal (opOf w)).status))) := by
  simp only [issueWord, hd]

section

variable {w : CommandWord} {i : Instr} (hd : decode w = .ok i) {s : State}
include hd

theorem issueWord_of_next {t : State} (h : exec i s = .next t) :
    issueWord w s = .next (t.answer (.status (statusWord t.status))) := by
  simp only [issueWord, hd, h]

theorem issueWord_of_fault {f : Fault} (h : exec i s = .fault f) : issueWord w s = .fault f := by
  simp only [issueWord, hd, h]

theorem issueWord_of_refused {r : Refusal} (h : exec i s = .refused r) :
    issueWord w s = .refused r := by
  simp only [issueWord, hd, h]

end

/-- Settles O8: an illegal word is one that `decode` rejects, and ILLEGAL is a fault code. -/
theorem illegalWordChangesOnlyStatus : Obligations.IllegalWordChangesOnlyStatus := by
  intro s w hw
  obtain ⟨e, hd⟩ := (decodeRejectsExactlyIllegalWords w).1 hw
  refine (issueWord_of_reject hd s).trans ?_
  rw [finish_of_fault rfl]
  rfl

/-- Settles O7: a step is the host's next action (`step_of_host`); of a command word that decodes, the
three outcomes of `exec` are those of the step. -/
theorem stepRunsDecodedCommand : Obligations.StepRunsDecodedCommand := by
  intro s a rest hc hh
  refine ⟨step_of_host hc hh, ?_⟩
  rintro w i rfl hd
  rw [step_of_host hc hh]
  cases he : exec i { s with host := rest } with
  | next t => exact issueWord_of_next hd he
  | fault f => exact issueWord_of_fault hd he
  | refused r => exact issueWord_of_refused hd he

end Sys2Proof.Machine
end

section
/-! The frame of the commands (30_encoding R73): what each leaves unchanged. -/

namespace Sys2Proof.Machine

variable {i : Instr} {s t : State}

theorem exec_host_reply (h : exec i s = .next t) : t.host = s.host ∧ t.reply = s.reply := by
  apply exec_cases h
  all_goals
    intros
    subst t
    exact ⟨rfl, rfl⟩

theorem exec_keeps_in (h : exec i s = .next t) (hmov : i ≠ .mov) :
    t.inBuf = s.inBuf ∧ t.inLen = s.inLen := by
  apply exec_cases h
  case mov => intro b hi; exact absurd hi hmov
  all_goals
    intros
    subst t
    exact ⟨rfl, rfl⟩

theorem exec_keeps_out (h : exec i s = .next t) (hxform : ∀ c, i ≠ .xform c)
    (hframe : ∀ c p a, i ≠ .frame c p a) (hencpr : i ≠ .encpr) (hstsel : ∀ m, i ≠ .stsel m)
    (hbarista : ∀ l, i ≠ .barista l) (hkeepalive : i ≠ .keepalive) :
    t.outBuf = s.outBuf ∧ t.outLen = s.outLen := by
  apply exec_cases h
  case prod =>
    rintro b op (⟨c, hi⟩ | ⟨c, p, a, hi⟩ | hi | ⟨m, hi⟩ | ⟨l, hi⟩ | hi)
    · exact absurd hi (hxform c)
    · exact absurd hi (hframe c p a)
    · exact absurd hi hencpr
    · exact absurd hi (hstsel m)
    · exact absurd hi (hbarista l)
    · exact absurd hi hkeepalive
  case prodC =>
    rintro n b op (hi | ⟨p, a, hi⟩)
    · exact absurd hi (hxform true)
    · exact absurd hi (hframe true p a)
  all_goals
    intros
    subst t
    exact ⟨rfl, rfl⟩

theorem exec_keeps_records (h : exec i s = .next t) :
    (i ≠ .decid → t.identity = s.identity) ∧ (i ≠ .decst → t.alerts = s.alerts)
      ∧ (i ≠ .decpr → t.progress = s.progress) ∧ (i ≠ .decstat → t.statistics = s.statistics) := by
  apply exec_cases h
  case decid | decst | decpr | decstat =>
    intros
    subst i t
    simp
  all_goals
    intros
    subst t
    exact ⟨fun _ => rfl, fun _ => rfl, fun _ => rfl, fun _ => rfl⟩

theorem exec_keeps_ctr (h : exec i s = .next t) (hxform : i ≠ .xform true)
    (hframe : ∀ p a, i ≠ .frame true p a) : t.ctr = s.ctr := by
  apply exec_cases h
  case prodC =>
    rintro n b op (hi | ⟨p, a, hi⟩)
    · exact absurd hi hxform
    · exact absurd hi (hframe p a)
  all_goals
    intros
    subst t
    rfl

/-- Settles O22, part by part. -/
theorem commandsWriteOnlyTheirOwn : Obligations.CommandsWriteOnlyTheirOwn := by
  intro i s t h
  obtain ⟨hhost, hreply⟩ := exec_host_reply h
  obtain ⟨hid, hst, hpr, hcnt⟩ := exec_keeps_records h
  exact ⟨exec_cfg h, hhost, hreply, exec_keeps_in h, exec_keeps_out h, hid, hst, hpr, hcnt,
    exec_keeps_ctr h⟩

end Sys2Proof.Machine
end

section
/-! ENCPR on a product code and property pairs (45_product_encode R180 to R183): when it produces, and
the bytes it produces. -/

namespace Sys2Proof.Machine

theorem slotOk_iff (slot : Byte) : slotOk slot = true ↔ 1 ≤ slot.toNat ∧ slot.toNat ≤ 11 := by
  rw [slotOk, Bool.and_eq_true, decide_eq_true_iff, decide_eq_true_iff]

theorem propertyPairs_flatMap (pairs : List (Byte × Byte)) :
    propertyPairs (pairs.flatMap fun p => [p.1, p.2]) = pairs := by
  induction pairs with
  | nil => rfl
  | cons p rest ih => simp [propertyPairs, ih]

theorem length_flatMap_pairs (pairs : List (Byte × Byte)) :
    (pairs.flatMap fun p => [p.1, p.2]).length = 2 * pairs.length := by
  simp [List.length_flatMap, Nat.mul_comm]

/-- With a code and pairs in IN the length is odd, so the slots alone decide how ENCPR ends. -/
theorem execEncpr_of_pairs {s : State} {code : Byte} {pairs : List (Byte × Byte)}
    (h : InHolds s (code :: pairs.flatMap fun p => [p.1, p.2])) :
    execEncpr s = if (pairs.all fun p => slotOk p.1) = true then
      s.produce 0x30#8 (brewBytes code pairs) else s.raise .config 0x30#8 := by
  have hodd : ¬ s.inLen % 2 = 0 := by
    rw [h.1, List.length_cons, length_flatMap_pairs]
    omega
  rw [execEncpr, if_neg hodd, withInput_of_holds h, List.tail_cons, propertyPairs_flatMap]
  rfl

/-- Setting one value after the other, at the slot less 1: an entry is the value of the last pair for
it, else what it was. -/
theorem getElem?_foldl_set (pairs : List (Byte × Byte)) (hslot : ∀ p ∈ pairs, 1 ≤ p.1.toNat)
    (r : List Byte) {k : Nat} (hk : k < r.length) :
    (pairs.foldl (fun r p => r.set (p.1.toNat - 1) p.2) r)[k]? = some
      (((pairs.filter fun p => p.1.toNat == k + 1).getLast?.map Prod.snd).getD r[k]) := by
  induction pairs using List.reverseRecOn with
  | nil => simp [hk]
  | append_singleton ps p ih =>
    have hp : 1 ≤ p.1.toNat := hslot p (by simp)
    rw [List.foldl_append, List.foldl_cons, List.foldl_nil, List.getElem?_set, List.filter_append]
    by_cases hpk : p.1.toNat = k + 1
    · simp [hpk, length_foldl_set, hk]
    · rw [if_neg (by omega), ih fun q hq => hslot q (by simp [hq])]
      simp [hpk]

/-- Byte `k` of a brew command (R182). -/
theorem getElem?_brewBytes (code : Byte) {pairs : List (Byte × Byte)}
    (hslot : ∀ p ∈ pairs, 1 ≤ p.1.toNat) {k : Nat} (hk : k < 15) :
    (brewBytes code pairs)[k]? = some
      (((pairs.filter fun p => p.1.toNat == k + 1).getLast?.map Prod.snd).getD
        (if k = 0 then code else 0x00#8)) := by
  have hlen : k < (code :: List.replicate 14 0x00#8).length := hk
  rw [brewBytes, getElem?_foldl_set pairs hslot _ hlen]
  cases k with
  | zero => rfl
  | succ k => rw [List.getElem_cons_succ, List.getElem_replicate, if_neg k.succ_ne_zero]

end Sys2Proof.Machine
end

section
/-! Sequences of commands (30_encoding R81): a payload command, MOV, then FRAME. -/

namespace Sys2Proof.Machine

/-- What FRAME puts in OUT when IN holds `b` (R194). -/
def frameOutput (c p a : Bool) (s : State) (b : List Byte) : List Byte :=
  if c then transform s.cfg s.key (framedBytes p a s.key b) else framedBytes p a s.key b

@[simp] theorem length_frameOutput (c p a : Bool) (s : State) (b : List Byte) :
    (frameOutput c p a s b).length = b.length + p.toNat + a.toNat := by
  cases c <;> simp [frameOutput]

/-- With the key it needs and room for the framed bytes, FRAME produces them. -/
theorem execFrame_produces {c p a : Bool} {s : State} {b : List Byte} (hb : InHolds s b)
    (hpa : (p && a) = false) (hkey : (c || p || a) = true → s.status.keyV = true)
    (hfit : b.length + p.toNat + a.toNat ≤ s.cfg.bufBytes) :
    execFrame c p a s =
      (if c then s.runCounter (framedBytes p a s.key b).length else s).produce 0x11#8
        (frameOutput c p a s b) := by
  have hnokey : ¬ ((c || p || a) && !s.status.keyV) = true := by
    rw [Bool.and_eq_true, Bool.not_eq_true']
    rintro ⟨hneeds, hnone⟩
    rw [hkey hneeds] at hnone
    cases hnone
  rw [execFrame, if_neg (by simp [hpa]), if_neg hnokey, if_neg (by rw [hb.1]; omega),
    withInput_of_holds hb]
  cases c <;> rfl

/-- `t` goes on from `s` with `rest` as the host's actions to come: the same configuration and key. -/
structure GoesOn (s t : State) (rest : List HostAction) : Prop where
  cfg  : t.cfg = s.cfg
  key  : t.key = s.key
  keyV : t.status.keyV = s.status.keyV
  host : t.host = rest

section

variable {s : State} {i : Instr} {rest : List HostAction} (hc : configValid s.cfg = true)
  (hh : s.host = issue i :: rest) (hwf : WellFormed i = true) (hset : ∀ k, i ≠ .setkey k)
  (hid : i ≠ .keyid)
include hc hh hwf hset hid

/-- The step that issues a command other than the two that write KEY. -/
theorem step_issue {u : State} (he : exec i (s.withHost rest) = .next u) :
    step s = .next (u.answer (.status (statusWord u.status)))
      ∧ GoesOn s (u.answer (.status (statusWord u.status))) rest := by
  obtain ⟨hkey, hkeyV⟩ := keyHasTwoWriters i _ _ he hset hid
  obtain ⟨hhost, -⟩ := exec_host_reply he
  have hcfg := exec_cfg he
  refine ⟨?_, hcfg, hkey, hkeyV, hhost⟩
  rw [step_of_host hc hh]
  exact issueWord_of_next (decode_encode hwf) he

/-- The step that issues a producer whose bytes fit. -/
theorem step_producer {u : State} {op : Byte} {b : List Byte}
    (he : exec i (s.withHost rest) = u.produce op b) (hu : u.cfg = s.cfg)
    (hb : b.length ≤ s.cfg.bufBytes) :
    ∃ t, step s = .next t ∧ GoesOn s t rest ∧ OutHolds t b := by
  rw [← hu] at hb
  obtain ⟨hstep, hgo⟩ := step_issue hc hh hwf hset hid (he.trans (produce_of_fits op hb))
  exact ⟨_, hstep, hgo, holds_writeBytes _ hb⟩

end

section

variable {s : State} {b : List Byte} (hc : configValid s.cfg = true)
include hc

theorem step_mov {rest : List HostAction} (hh : s.host = issue .mov :: rest) (hb : OutHolds s b) :
    ∃ t, step s = .next t ∧ GoesOn s t rest ∧ InHolds t b := by
  have he : exec .mov (s.withHost rest) = .next _ := withOutput_of_holds (s := s.withHost rest) hb _
  obtain ⟨hstep, hgo⟩ := step_issue hc hh rfl nofun nofun he
  exact ⟨_, hstep, hgo, holds_writeBytes _ hb.2.1⟩

variable {c p a : Bool} (hpa : (p && a) = false) (hkey : s.status.keyV = true)
  (hfit : b.length + p.toNat + a.toNat ≤ s.cfg.bufBytes)
include hpa hkey hfit

theorem step_frame (hh : s.host = [issue (.frame c p a)]) (hb : InHolds s b) :
    ∃ t, step s = .next t ∧ OutHolds t (frameOutput c p a s b) := by
  have he := execFrame_produces (s := s.withHost []) (c := c) hb hpa (fun _ => hkey) hfit
  obtain ⟨t, hstep, -, hout⟩ := step_producer hc hh (by simp [WellFormed, hpa]) nofun nofun he
    (by cases c <;> rfl) (by simpa using hfit)
  exact ⟨t, hstep, hout⟩

/-- A command that produces `b`, then MOV, then FRAME: OUT holds `b` framed. -/
theorem run_producer_mov_frame {i : Instr} {op : Byte}
    (hh : s.host = [issue i, issue .mov, issue (.frame c p a)]) (hwf : WellFormed i = true)
    (hset : ∀ k, i ≠ .setkey k) (hid : i ≠ .keyid)
    (he : exec i (s.withHost [issue .mov, issue (.frame c p a)]) =
      (s.withHost [issue .mov, issue (.frame c p a)]).produce op b) :
    ∃ t, run 3 s = .next t ∧ OutHolds t (frameOutput c p a s b) := by
  obtain ⟨t₁, hstep₁, hgo₁, hout₁⟩ := step_producer hc hh hwf hset hid he rfl (by omega)
  obtain ⟨t₂, hstep₂, hgo₂, hin₂⟩ := step_mov (by rw [hgo₁.cfg, hc]) hgo₁.host hout₁
  have hcfg : t₂.cfg = s.cfg := hgo₂.cfg.trans hgo₁.cfg
  have hkey₂ : t₂.key = s.key := hgo₂.key.trans hgo₁.key
  obtain ⟨t₃, hstep₃, hout₃⟩ := step_frame (c := c) (by rw [hcfg, hc]) hpa
    (by rw [hgo₂.keyV, hgo₁.keyV, hkey]) (by rw [hcfg]; exact hfit) hgo₂.host hin₂
  refine ⟨t₃, ?_, ?_⟩
  · rw [run_of_step hstep₁, run_of_step hstep₂, run_of_step hstep₃]
    rfl
  · simpa only [frameOutput, hcfg, hkey₂] using hout₃

end

/-- Settles O59: ENCPR produces the 15 bytes of `getElem?_brewBytes`, and MOV and FRAME put the key
last. -/
theorem brewSequence : Obligations.BrewSequence := by
  intro s code pairs c hc hin hslot hkey hh
  have hroom := bufBytes_of_configValid hc
  have hok : (pairs.all fun p => slotOk p.1) = true :=
    List.all_eq_true.2 fun p hp => (slotOk_iff p.1).2 (hslot p hp)
  have he (rest : List HostAction) : execEncpr (s.withHost rest) = _ :=
    (execEncpr_of_pairs (s := s.withHost rest) hin).trans (if_pos hok)
  obtain ⟨t, hrun, hout⟩ := run_producer_mov_frame hc (p := false) (a := true) rfl hkey
    (by rw [length_brewBytes]; exact le_trans (by decide) hroom) hh rfl nofun nofun (he _)
  exact ⟨t, brewBytes code pairs, hrun, length_brewBytes code pairs,
    fun k hk => getElem?_brewBytes code (fun p hp => (hslot p hp).1) hk, hout⟩

/-- Settles O60: KEEPALIVE produces the two bytes of KA_PAYLOAD, and MOV and FRAME put the key first and
apply the transform. -/
theorem heartbeatSequence : Obligations.HeartbeatSequence := by
  intro s hc hkey hh
  have hroom := bufBytes_of_configValid hc
  exact run_producer_mov_frame hc (c := true) (p := true) (a := false) rfl hkey
    (b := [s.cfg.kaFirst, s.cfg.kaSecond]) (show 3 ≤ s.cfg.bufBytes by omega) hh rfl nofun nofun rfl

end Sys2Proof.Machine
end

section
/-! The nibble step of the cipher (40_cipher R104, R106, R108, R110, R112): the integers of R104 reduced
to the 4-bit words of the datapath, where the involution and the fixed points are read off. -/

namespace Sys2Proof.Machine

/-- `mod16` is the ring map from the integers to the 4-bit words (00_scope R10), so it goes through the
sums of R104. -/
theorem mod16_eq_intCast (x : Int) : mod16 x = (x : Nibble) := by
  change BitVec.ofNat 4 (x % 16).toNat = BitVec.ofInt 4 x
  apply BitVec.eq_of_toNat_eq
  simp only [BitVec.toNat_ofNat, BitVec.toNat_ofInt]
  omega

/-- CTR[3:0] at nibble index `i` is `mod16(i)` (R106). -/
theorem extractLsb'_counter_low (i : Nat) :
    (BitVec.ofNat 8 i).extractLsb' 0 4 = BitVec.ofNat 4 i := by
  apply BitVec.eq_of_toNat_eq
  simp only [BitVec.extractLsb'_toNat, BitVec.toNat_ofNat, Nat.shiftRight_eq_div_pow]
  omega

/-- CTR[7:4] at nibble index `i` is `mod16(i >> 4)` (R106). -/
theorem extractLsb'_counter_high (i : Nat) :
    (BitVec.ofNat 8 i).extractLsb' 4 4 = BitVec.ofNat 4 (i >>> 4) := by
  apply BitVec.eq_of_toNat_eq
  simp only [BitVec.extractLsb'_toNat, BitVec.toNat_ofNat, Nat.shiftRight_eq_div_pow]
  omega

/-- The integer steps of R104 are the datapath of R112 with CTR at the nibble's index. -/
theorem nib_eq_datapathNibble (c : Config) (n : Nibble) (i : Nat) (kh kl : Nibble) :
    nib c n i kh kl = datapathNibble c (BitVec.ofNat 8 i) kh kl n := by
  simp only [nib, datapathNibble, mod16_eq_intCast, Int.cast_add, Int.cast_sub, Int.cast_natCast,
    BitVec.natCast_eq_ofNat, BitVec.ofNat_toNat, BitVec.setWidth_eq, extractLsb'_counter_low,
    extractLsb'_counter_high]

theorem nib_congr (c : Config) (n : Nibble) {i i' : Nat} (h : i % 256 = i' % 256) (kh kl : Nibble) :
    nib c n i kh kl = nib c n i' kh kl := by
  have hctr : BitVec.ofNat 8 i = BitVec.ofNat 8 i' := BitVec.eq_of_toNat_eq (by simpa using h)
  rw [nib_eq_datapathNibble, nib_eq_datapathNibble, hctr]

/-- R104 in the form of the proof of R108: the tables with the offsets `s` and `t` around them. -/
def offsetTables (c : Config) (s t n : Nibble) : Nibble :=
  tableAt c.t1 (tableAt c.t2 (tableAt c.t1 (n + s) + t) - t) - s

/-- The offsets are those of R108: `s = i + keyHi` and `t = keyLo + i5 - i - keyHi`. -/
theorem datapathNibble_eq_offsetTables (c : Config) (ctr : BitVec 8) (kh kl n : Nibble) :
    datapathNibble c ctr kh kl n = offsetTables c (ctr.extractLsb' 0 4 + kh)
      (kl + ctr.extractLsb' 4 4 - ctr.extractLsb' 0 4 - kh) n := by
  generalize hi : ctr.extractLsb' 0 4 = ci
  generalize hh : ctr.extractLsb' 4 4 = ch
  have hin : n + ci + kh = n + (ci + kh) := add_assoc ..
  have hadd (a : Nibble) : a + kl + ch - ci - kh = a + (kl + ch - ci - kh) := by ring
  have hsub (b : Nibble) : b + kh + ci - kl - ch = b - (kl + ch - ci - kh) := by ring
  have hout (d : Nibble) : d - ci - kh = d - (ci + kh) := sub_sub ..
  simp only [datapathNibble, offsetTables, hi, hh, hin, hadd, hsub, hout]

theorem isInvolution_iff (t : Vector Nibble 16) :
    isInvolution t = true ↔ Function.Involutive (tableAt t) := by
  simp only [isInvolution, List.all_eq_true, List.mem_range, beq_iff_eq]
  refine ⟨fun h x => ?_, fun h k _ => h _⟩
  have hx := h x.toNat x.isLt
  rwa [BitVec.ofNat_toNat, BitVec.setWidth_eq] at hx

/-- The proof of R108: T1 against T1, then T2 against T2, the offsets cancelling between them. -/
theorem offsetTables_involutive {c : Config} (h₁ : Function.Involutive (tableAt c.t1))
    (h₂ : Function.Involutive (tableAt c.t2)) (s t : Nibble) :
    Function.Involutive (offsetTables c s t) := fun n => by
  simp only [offsetTables, sub_add_cancel, h₁ _, h₂ _, add_sub_cancel_right]

/-- A nibble mapped to itself would be a fixed point of T2, taken at the inner table's index. -/
theorem offsetTables_ne {c : Config} (h₁ : Function.Involutive (tableAt c.t1))
    (h₂ : ∀ x, tableAt c.t2 x ≠ x) (s t n : Nibble) : offsetTables c s t n ≠ n := fun h => by
  have hs : tableAt c.t1 (tableAt c.t2 (tableAt c.t1 (n + s) + t) - t) = n + s :=
    sub_eq_iff_eq_add.1 h
  have ht : tableAt c.t2 (tableAt c.t1 (n + s) + t) - t = tableAt c.t1 (n + s) :=
    h₁.eq_iff.1 hs
  exact h₂ _ (sub_eq_iff_eq_add.1 ht)

theorem nib_nib {c : Config} (h₁ : isInvolution c.t1 = true) (h₂ : isInvolution c.t2 = true)
    (n : Nibble) (i : Nat) (kh kl : Nibble) : nib c (nib c n i kh kl) i kh kl = n := by
  simp only [nib_eq_datapathNibble, datapathNibble_eq_offsetTables]
  exact offsetTables_involutive ((isInvolution_iff _).1 h₁) ((isInvolution_iff _).1 h₂) _ _ n

theorem defaultT1_involutive : Function.Involutive (tableAt defaultT1) :=
  (isInvolution_iff _).1 (by decide)

theorem tableAt_defaultT2_ne : ∀ x, tableAt defaultT2 x ≠ x := by decide

/-- Settles O37: the default T1 is an involution and the default T2 has no fixed point, which is what
`offsetTables_ne` asks. -/
theorem defaultTablesMoveEveryNibble : Obligations.DefaultTablesMoveEveryNibble := by
  intro c n i kh kl h₁ h₂
  rw [nib_eq_datapathNibble, datapathNibble_eq_offsetTables]
  exact offsetTables_ne (h₁ ▸ defaultT1_involutive) (h₂ ▸ tableAt_defaultT2_ne) _ _ n

end Sys2Proof.Machine
end

section
/-! The transform over bytes (40_cipher R103, R105, R106, R108, R109, R112): a byte is its two nibbles,
and each byte of a transform comes from the byte at its own position. -/

namespace Sys2Proof.Machine

theorem joinNibbles_eq_append (hi lo : Nibble) : joinNibbles hi lo = hi ++ lo := by
  rw [BitVec.append_def, BitVec.shiftLeftZeroExtend_eq, BitVec.setWidth'_eq]
  rfl

@[simp] theorem highNibble_joinNibbles (hi lo : Nibble) : highNibble (joinNibbles hi lo) = hi := by
  rw [joinNibbles_eq_append]
  exact BitVec.extractLsb'_append_eq_left

@[simp] theorem lowNibble_joinNibbles (hi lo : Nibble) : lowNibble (joinNibbles hi lo) = lo := by
  rw [joinNibbles_eq_append]
  exact BitVec.extractLsb'_append_eq_right

@[simp] theorem joinNibbles_highNibble_lowNibble (x : Byte) :
    joinNibbles (highNibble x) (lowNibble x) = x := by
  rw [joinNibbles_eq_append]
  exact BitVec.extractLsb'_append_extractLsb' (w := 4) (len := 4)

theorem highNibble_transformByte (c : Config) (key : Byte) (j : Nat) (x : Byte) :
    highNibble (transformByte c key j x) =
      nib c (highNibble x) (2 * j) (highNibble key) (lowNibble key) := highNibble_joinNibbles ..

theorem lowNibble_transformByte (c : Config) (key : Byte) (j : Nat) (x : Byte) :
    lowNibble (transformByte c key j x) =
      nib c (lowNibble x) (2 * j + 1) (highNibble key) (lowNibble key) := lowNibble_joinNibbles ..

/-- One byte twice at the same position: each nibble meets its own index again. -/
theorem transformByte_transformByte {c : Config} (h₁ : isInvolution c.t1 = true)
    (h₂ : isInvolution c.t2 = true) (key : Byte) (j : Nat) (x : Byte) :
    transformByte c key j (transformByte c key j x) = x := by
  rw [transformByte, highNibble_transformByte, lowNibble_transformByte, nib_nib h₁ h₂,
    nib_nib h₁ h₂, joinNibbles_highNibble_lowNibble]

theorem getElem?_transformFrom (c : Config) (key : Byte) (j : Nat) (b : List Byte) (k : Nat) :
    (transformFrom c key j b)[k]? = b[k]?.map (transformByte c key (j + k)) := by
  induction b generalizing j k with
  | nil => rfl
  | cons x rest ih =>
    cases k with
    | zero => rfl
    | succ k => simp only [transformFrom, List.getElem?_cons_succ, ih, Nat.add_right_comm j 1 k,
        Nat.add_assoc]

/-- Byte `k` of a transform is byte `k` of its input at position `k` (R103, R105). -/
theorem getElem?_transform (c : Config) (key : Byte) (b : List Byte) (k : Nat) :
    (transform c key b)[k]? = b[k]?.map (transformByte c key k) := by
  rw [transform, getElem?_transformFrom, Nat.zero_add]

theorem transform_transform {c : Config} (h₁ : isInvolution c.t1 = true)
    (h₂ : isInvolution c.t2 = true) (key : Byte) (b : List Byte) :
    transform c key (transform c key b) = b := by
  refine List.ext_getElem? fun k => ?_
  have htwice : transformByte c key k ∘ transformByte c key k = id :=
    funext (transformByte_transformByte h₁ h₂ key k)
  rw [getElem?_transform, getElem?_transform, Option.map_map, htwice, Option.map_id_fun, id]

/-- The datapath from position `j` on, with CTR at the index of the first nibble. -/
theorem datapath_eq_transformFrom (c : Config) (key : Byte) (j : Nat) (b : List Byte) :
    datapath c key (BitVec.ofNat 8 (2 * j)) b =
      (transformFrom c key j b, BitVec.ofNat 8 (2 * (j + b.length))) := by
  induction b generalizing j with
  | nil => rfl
  | cons x rest ih =>
    have hlow : BitVec.ofNat 8 (2 * j) + 1#8 = BitVec.ofNat 8 (2 * j + 1) :=
      BitVec.ofNat_add_ofNat ..
    have hnext : BitVec.ofNat 8 (2 * j) + 2#8 = BitVec.ofNat 8 (2 * (j + 1)) :=
      BitVec.ofNat_add_ofNat ..
    simp only [datapath, transformFrom, transformByte, nib_eq_datapathNibble, hlow, hnext, ih,
      List.length_cons, Nat.add_right_comm j 1, Nat.add_assoc]

/-- Settles O36: `datapath_eq_transformFrom` from position 0. -/
theorem datapathComputesTransform : Obligations.DatapathComputesTransform := by
  intro c key b
  rw [← Nat.zero_add b.length]
  exact datapath_eq_transformFrom c key 0 b

/-- Settles O35: CTR has 8 bits, and twice a position mod 128 is its index mod 256. -/
theorem transformPeriod : Obligations.TransformPeriod := by
  refine ⟨fun c n i kh kl => nib_congr c n (by omega) kh kl, fun c key j x => ?_⟩
  have hhigh : 2 * j % 256 = 2 * (j % 128) % 256 := by omega
  have hlow : (2 * j + 1) % 256 = (2 * (j % 128) + 1) % 256 := by omega
  rw [transformByte, transformByte, nib_congr c _ hhigh, nib_congr c _ hlow]

/-- Settles O33. -/
theorem transformIsInvolution : Obligations.TransformIsInvolution :=
  fun _ key b h₁ h₂ => transform_transform h₁ h₂ key b

/-- Settles O34. -/
theorem transformKeepsLength : Obligations.TransformKeepsLength := length_transform

end Sys2Proof.Machine
end

section
/-! XFORM (40_cipher R101), and XFORM.C; MOV; XFORM.C (95_test_vectors S1). -/

namespace Sys2Proof.Machine

theorem execXform_copies {s : State} {b : List Byte} (hb : InHolds s b) :
    execXform false s = s.produce 0x10#8 b := withInput_of_holds hb _

theorem execXform_enciphers {s : State} {b : List Byte} (hb : InHolds s b)
    (hkey : s.status.keyV = true) :
    execXform true s =
      (s.runCounter b.length).produce 0x10#8 (transform s.cfg s.key b) := by
  rw [execXform, if_neg (by simp [hkey]), withInput_of_holds hb]
  rfl

/-- Settles O30. -/
theorem xformCopies : Obligations.XformCopies := by
  intro s b hb
  exact ⟨_, (execXform_copies hb).trans (produce_of_fits _ hb.2.1), produced_storeOut s _ b⟩

/-- Settles O31: the bytes produced are those of the transform, which is made byte by byte. -/
theorem xformEnciphers : Obligations.XformEnciphers := by
  intro s b hb hkey
  have hfit : (transform s.cfg s.key b).length ≤ s.cfg.bufBytes :=
    (length_transform ..).trans_le hb.2.1
  refine ⟨_, transform s.cfg s.key b, (execXform_enciphers hb hkey).trans (produce_of_fits _ hfit),
    producedByTransform_storeOut s _ _ _, length_transform .., fun j hj => ?_⟩
  refine ⟨transformByte s.cfg s.key j b[j], ?_, highNibble_transformByte ..,
    lowNibble_transformByte ..⟩
  rw [getElem?_transform, List.getElem?_eq_getElem hj]
  rfl

/-- A configuration that passes its checks has involutive tables (00_scope R8). -/
theorem isInvolution_of_configValid {c : Config} (h : configValid c = true) :
    isInvolution c.t1 = true ∧ isInvolution c.t2 = true := by
  simp only [configValid, Bool.and_eq_true] at h
  obtain ⟨⟨⟨⟨⟨⟨-, h₁⟩, h₂⟩, -⟩, -⟩, -⟩, -⟩ := h
  exact ⟨h₁, h₂⟩

/-- The step that issues XFORM.C with a key. -/
theorem step_xform {s : State} {b : List Byte} {rest : List HostAction}
    (hc : configValid s.cfg = true) (hkey : s.status.keyV = true)
    (hh : s.host = issue (.xform true) :: rest) (hb : InHolds s b) :
    ∃ t, step s = .next t ∧ GoesOn s t rest ∧ OutHolds t (transform s.cfg s.key b) :=
  step_producer hc hh rfl nofun nofun (execXform_enciphers (s := s.withHost rest) hb hkey) rfl
    ((length_transform ..).trans_le hb.2.1)

/-- Settles O38: the second XFORM.C meets the key and the tables of the first, and the transform is its
own inverse. -/
theorem encipherTwiceRestores : Obligations.EncipherTwiceRestores := by
  intro s b hc hb hkey hh
  obtain ⟨h₁, h₂⟩ := isInvolution_of_configValid hc
  obtain ⟨t₁, hstep₁, hgo₁, hout₁⟩ := step_xform hc hkey hh hb
  obtain ⟨t₂, hstep₂, hgo₂, hin₂⟩ := step_mov (by rw [hgo₁.cfg, hc]) hgo₁.host hout₁
  have hcfg : t₂.cfg = s.cfg := hgo₂.cfg.trans hgo₁.cfg
  have hkey₂ : t₂.key = s.key := hgo₂.key.trans hgo₁.key
  obtain ⟨t₃, hstep₃, hgo₃, hout₃⟩ := step_xform (by rw [hcfg, hc])
    (by rw [hgo₂.keyV, hgo₁.keyV, hkey]) hgo₂.host hin₂
  rw [hcfg, hkey₂, transform_transform h₁ h₂] at hout₃
  refine ⟨t₃, ?_, hout₃, hgo₃.host⟩
  rw [run_of_step hstep₁, run_of_step hstep₂, run_of_step hstep₃]
  rfl

end Sys2Proof.Machine
end

section
/-! Bytes as operands (00_scope R11, 20_memory R55, 41_identity R122, R123): each function of Operands.lean
against the numbers it stands for, and the bytes below a minimum length. -/

namespace Sys2Proof.Machine

theorem getElem?_eq_byteAt {b : List Byte} {j : Nat} (h : j < b.length) : b[j]? = some (byteAt b j) := by
  rw [byteAt, List.getD_eq_getElem _ _ h, List.getElem?_eq_getElem h]

theorem le16_eq_append (b : List Byte) (j : Nat) : le16 b j = byteAt b (j + 1) ++ byteAt b j := by
  rw [BitVec.append_def, BitVec.shiftLeftZeroExtend_eq, BitVec.setWidth'_eq, BitVec.or_comm]
  rfl

theorem toNat_le16 (b : List Byte) (j : Nat) :
    (le16 b j).toNat = (byteAt b j).toNat + 256 * (byteAt b (j + 1)).toNat := by
  rw [le16_eq_append, BitVec.toNat_append, ← Nat.shiftLeft_add_eq_or_of_lt (BitVec.isLt _),
    Nat.shiftLeft_eq, Nat.mul_comm, Nat.add_comm]

/-- Two bytes that exist are read little-endian (20_memory R55). -/
theorem littleEndianAt_le16 {b : List Byte} {j : Nat} (h : j + 1 < b.length) :
    LittleEndianAt b j (le16 b j) :=
  ⟨_, _, getElem?_eq_byteAt (Nat.lt_of_succ_lt h), getElem?_eq_byteAt h, toNat_le16 b j⟩

/-- No part of a date wraps in its register: 1990 + 127, 1 + 15 and 1 + 31 fit (41_identity R122). -/
theorem dateOf_packed (v : BitVec 16) : DateOf v (dateYear v) (dateMonth v) (dateDay v) := by
  have hv : v.toNat < 65536 := v.isLt
  refine ⟨?_, ?_, ?_⟩
  all_goals
    simp only [dateYear, dateMonth, dateDay, BitVec.toNat_add, BitVec.toNat_setWidth,
      BitVec.extractLsb'_toNat, BitVec.toNat_ofNat, Nat.shiftRight_eq_div_pow]
    omega

theorem leNumber_eq_foldr (b : List Byte) : leNumber b = b.foldr (fun x n => x.toNat + 256 * n) 0 := by
  induction b with
  | nil => rfl
  | cons x rest ih => rw [leNumber, ih, List.foldr_cons]

theorem length_fieldBytes (start width : Nat) (b : List Byte) :
    (fieldBytes start width b).length = min width (b.length - start) := by
  rw [fieldBytes, List.length_take, List.length_drop]

/-- The bytes of a field are as many from its start as exist (41_identity R125). -/
theorem take_min_eq_fieldBytes (start width : Nat) (b : List Byte) :
    (b.drop start).take (min width (b.length - start)) = fieldBytes start width b := by
  rw [fieldBytes, ← List.length_drop, ← List.take_eq_take_min]

theorem le_foldl_max {l : List Nat} {a : Nat} (h : a ∈ l) : a ≤ l.foldl max 0 := by
  rw [List.foldl_eq_foldr]
  exact List.le_max_of_le' 0 h le_rfl

/-- ID_MIN_LEN is above every mandatory byte index (41_identity R121). -/
theorem lt_idMinLen {l : IdLayout} {j : Nat} (h : j ∈ mandatoryIndices l) : j < idMinLen l :=
  Nat.lt_succ_of_le (le_foldl_max h)

end Sys2Proof.Machine
end

section
/-! DECID (41_identity R122 to R125) and the short records of DECID and DECPR
(43_brew_progress R153, R157). -/

namespace Sys2Proof.Machine

/-- DECID on an IN of at least ID_MIN_LEN bytes: the record is written and ID_V is set. -/
theorem execDecid_of_holds {s : State} {b : List Byte} (hb : InHolds s b)
    (hlen : idMinLen s.cfg.idLayout ≤ b.length) :
    execDecid s = .next { s with
      identity := identityOf s.cfg.idLayout b s.identity
      status := { okStatus s.status 0x20#8 with idV := true } } := by
  have hin : ¬ s.inLen < idMinLen s.cfg.idLayout := by rw [hb.1]; exact not_lt.2 hlen
  rw [execDecid, if_neg hin, withInput_of_holds hb, State.finish, State.setStatus, statusAfter_ok]
  rfl

theorem execDecid_of_short {s : State} (h : s.inLen < idMinLen s.cfg.idLayout) :
    execDecid s = .next ((s.setIdV false).finish .decode 0x20#8) := if_pos h

theorem execDecpr_of_short {s : State} (h : s.inLen < prMinLen s.cfg.progLayout) :
    execDecpr s = .next ((s.setPrV false).finish .decode 0x22#8) := if_pos h

/-- Settles O41: every mandatory index is below ID_MIN_LEN, so IN has the bytes the record is made of. -/
theorem decidMandatoryFields : Obligations.DecidMandatoryFields := by
  intro s b hb hlen
  have hlt {j : Nat} (hj : j ∈ mandatoryIndices s.cfg.idLayout) : j < b.length :=
    (lt_idMinLen hj).trans_le hlen
  refine ⟨_, execDecid_of_holds hb hlen, rfl, getElem?_eq_byteAt (hlt ?_),
    getElem?_eq_byteAt (hlt ?_), getElem?_eq_byteAt (hlt ?_), littleEndianAt_le16 (hlt ?_),
    littleEndianAt_le16 (hlt ?_), littleEndianAt_le16 (hlt ?_), littleEndianAt_le16 (hlt ?_),
    littleEndianAt_le16 (hlt ?_), getElem?_eq_byteAt (hlt ?_), dateOf_packed _, dateOf_packed _⟩
  all_goals simp [mandatoryIndices]

/-- Settles O42: above its threshold a field is the bytes of `fieldBytes`, the tablet id their number. -/
theorem decidOptionalFields : Obligations.DecidOptionalFields := by
  intro s b hb hlen
  refine ⟨_, execDecid_of_holds hb hlen, ?_, ?_, ?_⟩
  all_goals
    simp only [identityOf]
    split
    · next hpresent =>
      simp only [decide_eq_true hpresent, length_fieldBytes, take_min_eq_fieldBytes,
        ← leNumber_eq_foldr, and_self]
    · next habsent => exact ⟨decide_eq_false habsent, rfl⟩

/-- Settles O45: each decoder ends in DECODE with its own valid bit cleared, before IN is read. -/
theorem shortRecordsAreDecodeErrors : Obligations.ShortRecordsAreDecodeErrors := by
  intro s
  constructor
  · intro hshort
    exact (execDecid_of_short hshort).trans (congrArg _ (finish_of_fault rfl (s.setIdV false) _))
  · intro hshort
    exact (execDecpr_of_short hshort).trans (congrArg _ (finish_of_fault rfl (s.setPrV false) _))

end Sys2Proof.Machine
end

section
/-! DECST (42_status_bitmap R141 to R144): the loop over bit indices as a bit-by-bit equation, and the
command's next state. -/

namespace Sys2Proof.Machine

theorem getLsbD_one_shiftLeft {w i : Nat} (hi : i < w) (j : Nat) :
    (1#w <<< j).getLsbD i = decide (i = j) := by
  rw [← BitVec.twoPow_eq, BitVec.getLsbD_twoPow, Bool.eq_iff_iff]
  simp only [Bool.and_eq_true, decide_eq_true_eq]
  omega

/-- A loop that sets the bits of a list of indices where a test holds: a bit is set iff it was, or its
index is in the list and passes the test. -/
theorem getLsbD_foldl_setBit {w i : Nat} (hi : i < w) (f : Nat → Bool) (js : List Nat) (v : BitVec w) :
    (js.foldl (fun v j => if f j then v ||| (1#w <<< j) else v) v).getLsbD i
      = (v.getLsbD i || (decide (i ∈ js) && f i)) := by
  induction js generalizing v with
  | nil => simp
  | cons j js ih =>
    rw [List.foldl_cons, ih]
    by_cases hij : i = j
    · subst hij
      cases f i <;> simp [getLsbD_one_shiftLeft hi]
    · cases f j <;> simp [hij, getLsbD_one_shiftLeft hi]

/-- Bit j of the bitmap is what the loop of R141 tests at index j. -/
theorem getLsbD_alertBits (b : List Byte) {j : Nat} (hj : j < 64) :
    (alertBits b).getLsbD j = alertBit b j := by
  rw [alertBits, getLsbD_foldl_setBit hj]
  simp [hj]

/-- An index whose byte IN does not have reads 0 (R143). -/
theorem alertBit_eq (b : List Byte) (j : Nat) :
    alertBit b j = match b[1 + j / 8]? with
      | some x => x.getLsbD (7 - j % 8)
      | none => false := by
  by_cases h : 1 + j / 8 < b.length
  · rw [alertBit, getElem?_eq_byteAt h, decide_eq_true h, Bool.true_and]
  · rw [alertBit, List.getElem?_eq_none (not_lt.1 h), decide_eq_false h, Bool.false_and]

/-- DECST on an IN of any length: the record is written and ST_V is set. -/
theorem execDecst_of_holds {s : State} {b : List Byte} (hb : InHolds s b) :
    execDecst s = .next { s with
      alerts := alertsOf s.cfg.knownMask b
      status := { okStatus s.status 0x21#8 with stV := true } } := by
  rw [execDecst, withInput_of_holds hb, State.finish, State.setStatus, statusAfter_ok]
  rfl

/-- Settles O43: each bit is the bit the loop tests at its index, and that is 0 where IN has no byte. -/
theorem decstResult : Obligations.DecstResult := by
  intro s b hb
  refine ⟨_, execDecst_of_holds hb, rfl, fun j hj => ?_, rfl⟩
  exact (getLsbD_alertBits b hj).trans (alertBit_eq b j)

end Sys2Proof.Machine
end

section
/-! DECPR (43_brew_progress R152 to R157): the record it writes, and the payload of JBLE §8 under every
layout that passes the check of R157. -/

namespace Sys2Proof.Machine

/-- Every register stands below PR_MIN_LEN: body offset `o` is byte `1 + o` (43_brew_progress R157). -/
theorem one_add_lt_prMinLen {l : ProgLayout} {o : Nat} (h : o ∈ progOffsets l) : 1 + o < prMinLen l := by
  have hmax : o ≤ (progOffsets l).foldl max 0 := le_foldl_max h
  rw [prMinLen]
  omega

/-- DECPR on an IN of at least PR_MIN_LEN bytes: the record is written and PR_V is set. -/
theorem execDecpr_of_holds {s : State} {b : List Byte} (hb : InHolds s b)
    (hlen : prMinLen s.cfg.progLayout ≤ b.length) :
    execDecpr s = .next { s with
      progress := progressOf s.cfg.progLayout b
      status := { okStatus s.status 0x22#8 with prV := true } } := by
  have hin : ¬ s.inLen < prMinLen s.cfg.progLayout := by rw [hb.1]; exact not_lt.2 hlen
  rw [execDecpr, if_neg hin, withInput_of_holds hb, State.finish, State.setStatus, statusAfter_ok]
  rfl

/-- Settles O44: every body offset is below PR_MIN_LEN, so IN has the bytes the record is made of. -/
theorem decprResult : Obligations.DecprResult := by
  intro s b hb hlen
  have hbyte {o : Nat} (ho : o ∈ progOffsets s.cfg.progLayout) : b[1 + o]? = some (byteAt b (1 + o)) :=
    getElem?_eq_byteAt ((one_add_lt_prMinLen ho).trans_le hlen)
  refine ⟨_, execDecpr_of_holds hb hlen, rfl, hbyte (o := 0) ?_, hbyte (o := 1) ?_, hbyte ?_, hbyte ?_,
    hbyte ?_, hbyte ?_, hbyte ?_, hbyte ?_, hbyte ?_, hbyte ?_, hbyte ?_, hbyte ?_, hbyte ?_, hbyte ?_,
    decide_eq_true_iff⟩
  all_goals simp [progOffsets]

/-- What the check of R157 tests at an offset is the byte DECPR reads there. -/
theorem byteAt_jbleProgressVector {o : Nat} {v : Byte} (h : vectorHolds o v = true) :
    byteAt jbleProgressVector (1 + o) = v := by
  rw [byteAt, List.getD_eq_getElem?_getD, eq_of_beq h, Option.getD_some]

/-- The JBLE §8 payload is long enough under every layout that passes the check of R157. -/
theorem prMinLen_le_of_fitsJbleVector {l : ProgLayout} (h : fitsJbleVector l = true) :
    prMinLen l ≤ jbleProgressVector.length := by
  simp only [fitsJbleVector, Bool.and_eq_true, decide_eq_true_eq, and_assoc] at h
  exact h.1

/-- The whole record of the JBLE §8 payload, the same under every layout that passes the check. -/
theorem progressOf_jbleProgressVector {l : ProgLayout} (h : fitsJbleVector l = true) :
    progressOf l jbleProgressVector =
      { state := 0x34#8, product := 0x04#8, strengthCur := 4#8, strengthMax := 4#8
        waterCur := 0#8, waterMax := 0x0e#8, milkTimeCur := 1#8, milkTimeMax := 1#8
        foamCur := 9#8, foamMax := 0x12#8, tempMax := 0x11#8, pauseMax := 0#8
        intake := 0x11#8, flagRaw := 0#8, valid := true } := by
  simp only [fitsJbleVector, Bool.and_eq_true, and_assoc] at h
  obtain ⟨-, hsc, hsm, hwc, hwm, hmc, hmm, hfc, hfm, htemp, hpause, hflag, hintake⟩ := h
  simp only [progressOf, byteAt_jbleProgressVector hsc, byteAt_jbleProgressVector hsm,
    byteAt_jbleProgressVector hwc, byteAt_jbleProgressVector hwm, byteAt_jbleProgressVector hmc,
    byteAt_jbleProgressVector hmm, byteAt_jbleProgressVector hfc, byteAt_jbleProgressVector hfm,
    byteAt_jbleProgressVector htemp, byteAt_jbleProgressVector hpause,
    byteAt_jbleProgressVector hflag, byteAt_jbleProgressVector hintake]
  rfl

/-- A configuration that passes its checks has a layout that passes the check of R157. -/
theorem fitsJbleVector_of_configValid {c : Config} (h : configValid c = true) :
    fitsJbleVector c.progLayout = true := by
  rw [configValid, Bool.and_eq_true] at h
  exact h.2

/-- Settles O46: a valid configuration has passed the check of R157, which fixes the record. -/
theorem jbleProgressVectorDecodes : Obligations.JbleProgressVectorDecodes := by
  intro s hc (hb : InHolds s jbleProgressVector)
  have hfits := fitsJbleVector_of_configValid hc
  have hexec := execDecpr_of_holds hb (prMinLen_le_of_fitsJbleVector hfits)
  rw [progressOf_jbleProgressVector hfits] at hexec
  exact ⟨_, hexec, rfl, rfl, rfl, rfl, rfl, rfl, rfl, rfl, rfl, rfl, rfl, rfl, rfl⟩

end Sys2Proof.Machine
end

section
/-! DECSTAT (44_statistics R170, R174): a big-endian group as a number, the groups by index, and the
record the command writes. -/

namespace Sys2Proof.Machine

/-- `BE24` concatenates its bytes: each bit of the word comes from one of the three (00_scope R11). -/
theorem be24_eq_append (x y z : Byte) : be24 x y z = x ++ y ++ z := by
  rw [be24]
  ext i hi
  grind

theorem toNat_be24 (x y z : Byte) :
    (be24 x y z).toNat = 65536 * x.toNat + 256 * y.toNat + z.toNat := by
  rw [be24_eq_append, BitVec.toNat_append, BitVec.toNat_append,
    ← Nat.shiftLeft_add_eq_or_of_lt y.isLt, ← Nat.shiftLeft_add_eq_or_of_lt z.isLt,
    Nat.shiftLeft_eq, Nat.shiftLeft_eq]
  omega

/-- Counter `m` is the group of bytes 3m, 3m + 1 and 3m + 2. -/
theorem getElem?_counterGroups {b : List Byte} {m : Nat} (hm : m < b.length / 3) :
    (counterGroups b)[m]? =
      some (be24 (byteAt b (3 * m)) (byteAt b (3 * m + 1)) (byteAt b (3 * m + 2))) := by
  fun_induction counterGroups b generalizing m with
  | case1 x y z rest ih =>
    cases m with
    | zero => rfl
    | succ m =>
      rw [List.getElem?_cons_succ, ih (by simp only [List.length_cons] at hm; omega)]
      rfl
  | case2 b hshort =>
    match b with
    | [] | [_] | [_, _] => simp at hm
    | x :: y :: z :: rest => exact (hshort x y z rest rfl).elim

/-- Below CNT_N the record of DECSTAT holds the groups; only above it do the old counters remain. -/
theorem getElem?_statisticsOf_cnt {b : List Byte} (old : StatisticsRecord) {m : Nat}
    (hm : m < b.length / 3) : (statisticsOf b old).cnt[m]? = (counterGroups b)[m]? :=
  List.getElem?_append_left (hm.trans_eq (length_counterGroups b).symm)

/-- DECSTAT on an IN of any length: the record is written and CNT_V is set. -/
theorem execDecstat_of_holds {s : State} {b : List Byte} (hb : InHolds s b) :
    execDecstat s = .next { s with
      statistics := statisticsOf b s.statistics
      status := { okStatus s.status 0x23#8 with cntV := true } } := by
  rw [execDecstat, withInput_of_holds hb, State.finish, State.setStatus, statusAfter_ok]
  rfl

/-- Settles O47: a counter below CNT_N is one whole group of three bytes, and IN has all three. -/
theorem decstatResult : Obligations.DecstatResult := by
  intro s b hb
  refine ⟨_, execDecstat_of_holds hb, rfl, rfl, fun m hm => ?_⟩
  exact ⟨_, _, _, _, getElem?_eq_byteAt (by omega), getElem?_eq_byteAt (by omega),
    getElem?_eq_byteAt (by omega),
    (getElem?_statisticsOf_cnt s.statistics hm).trans (getElem?_counterGroups hm), toNat_be24 ..⟩

end Sys2Proof.Machine
end

section
/-! STCHK (44_statistics R172, 10_state R29): an empty IN, and the first byte of any other. -/

namespace Sys2Proof.Machine

theorem statusAfter_of_not_fault {e : Err} (he : isFault e = false) (st : Status) (op : Byte) :
    statusAfter e op st = { st with err := e, lastOp := op } := by
  rw [statusAfter, he, Bool.or_false]

theorem execStchk_of_empty {s : State} (h : s.inLen = 0) :
    execStchk s = .next ((s.setSa false).finish .decode 0x24#8) := if_pos h

/-- With a first byte in IN, that byte alone decides how STCHK ends. -/
theorem execStchk_of_cons {s : State} {x : Byte} {rest : List Byte} (hb : InHolds s (x :: rest)) :
    execStchk s = if x = 0x0E#8 then .next ((s.setSa false).finish .statsUnavailable 0x24#8)
      else .next ((s.setSa true).finish .ok 0x24#8) := by
  have hin : ¬ s.inLen = 0 := by rw [hb.1]; exact Nat.succ_ne_zero _
  rw [execStchk, if_neg hin, withInput_of_holds hb]
  rfl

/-- Settles O48: DECODE is a fault code and sets STICKY, STATS_UNAVAILABLE is none and leaves it. -/
theorem stchkOutcomes : Obligations.StchkOutcomes := by
  intro s b hb
  cases b with
  | nil =>
    exact (execStchk_of_empty hb.1).trans (congrArg _ (finish_of_fault rfl (s.setSa false) _))
  | cons x rest =>
    have hexec : exec .stchk s = _ := execStchk_of_cons hb
    dsimp only
    split
    · next hx =>
      rw [hexec, if_pos hx, State.finish, statusAfter_of_not_fault rfl]
      rfl
    · next hx =>
      rw [hexec, if_neg hx, State.finish, statusAfter_ok]
      rfl

end Sys2Proof.Machine
end

section
/-! The constant payloads of STSEL, BARISTA and KEEPALIVE (44_statistics R171, 46_framing_and_control
R195, R196): each is at most four bytes, and the smallest buffer holds 56 (00_scope R8). -/

namespace Sys2Proof.Machine

theorem exists_produced_of_fits {s : State} {b : List Byte} (op : Byte)
    (hfit : b.length ≤ s.cfg.bufBytes) : ∃ t, s.produce op b = .next t ∧ Produced s t op b :=
  ⟨_, produce_of_fits op hfit, produced_storeOut s op b⟩

theorem selectorBytes_eq_ite (m : StatsKind) : selectorBytes m =
    if m = .total then [0x00#8, 0x01#8, 0xFF#8, 0xFF#8] else [0x00#8, 0x10#8, 0xFF#8, 0xFF#8] := by
  cases m <;> rfl

theorem lockBytes_eq_ite (l : LockAction) :
    lockBytes l = if l = .lock then [0x01#8] else [0x00#8] := by
  cases l <;> rfl

/-- Settles O51: each command produces its payload, which fits. -/
theorem constantPayloads : Obligations.ConstantPayloads := by
  intro s hroom
  refine ⟨fun m => ?_, fun l => ?_, ?_⟩
  · rw [← selectorBytes_eq_ite]
    exact exists_produced_of_fits _ ((length_selectorBytes m).trans_le (by omega))
  · rw [← lockBytes_eq_ite]
    exact exists_produced_of_fits _ ((length_lockBytes l).trans_le (by omega))
  · exact exists_produced_of_fits _ (show 2 ≤ s.cfg.bufBytes by omega)

end Sys2Proof.Machine
end

section
/-! How ENCPR ends (45_product_encode R182, R183): all slots in 1..11 give the 15 bytes; a slot outside, or
an even length, is CONFIG. -/

namespace Sys2Proof.Machine

theorem all_slotOk_iff (pairs : List (Byte × Byte)) :
    (pairs.all fun p => slotOk p.1) = true ↔ ∀ p ∈ pairs, 1 ≤ p.1.toNat ∧ p.1.toNat ≤ 11 := by
  simp only [List.all_eq_true, slotOk_iff]

theorem raise_of_fault {e : Err} (he : isFault e = true) (s : State) (op : Byte) :
    s.raise e op = .next { s with status := faultStatus s.status e op } :=
  congrArg Host.Outcome.next (finish_of_fault he s op)

theorem execEncpr_of_even {s : State} (h : s.inLen % 2 = 0) :
    execEncpr s = s.raise .config 0x30#8 := if_pos h

/-- Settles O49: the slots pass the check, and the bytes are those of `getElem?_brewBytes`. -/
theorem encprResult : Obligations.EncprResult := by
  intro s code pairs hin hslot hroom
  obtain ⟨t, hnext, hprod⟩ := exists_produced_of_fits (s := s) 0x30#8
    ((length_brewBytes code pairs).trans_le hroom)
  have hexec : execEncpr s = s.produce 0x30#8 (brewBytes code pairs) :=
    (execEncpr_of_pairs hin).trans (if_pos ((all_slotOk_iff pairs).2 hslot))
  exact ⟨t, brewBytes code pairs, hexec.trans hnext, hprod, length_brewBytes code pairs,
    fun k hk => getElem?_brewBytes code (fun p hp => (hslot p hp).1) hk⟩

/-- Settles O50: an even length fails the first check, a slot outside 1..11 the second, and either raises
CONFIG before anything is written. -/
theorem encprConfigFaults : Obligations.EncprConfigFaults := by
  constructor
  · intro s heven
    exact (execEncpr_of_even heven).trans (raise_of_fault rfl s _)
  · rintro s code pairs hin ⟨p, hp, hbad⟩
    have hslots : ¬ (pairs.all fun p => slotOk p.1) = true := by
      rw [all_slotOk_iff]
      intro hall
      obtain ⟨hlow, hhigh⟩ := hall p hp
      omega
    exact ((execEncpr_of_pairs hin).trans (if_neg hslots)).trans (raise_of_fault rfl s _)

end Sys2Proof.Machine
end

section
/-! The control commands NOP, SETKEY, KEYID and MOV, forward (46_framing_and_control R190 to R193). -/

namespace Sys2Proof.Machine

theorem finish_ok (s : State) (op : Byte) :
    s.finish .ok op = { s with status := okStatus s.status op } := by
  rw [State.finish, State.setStatus, statusAfter_ok]

/-- Settles O26: NOP is its STATUS write alone. -/
theorem nopResult : Obligations.NopResult := fun s => congrArg Host.Outcome.next (finish_ok s 0x00#8)

/-- Settles O27: KEY and KEY_V are written before the one STATUS write, which keeps KEY_V. -/
theorem setkeyResult : Obligations.SetkeyResult := fun s k =>
  congrArg Host.Outcome.next (finish_ok (s.setKey k) 0x01#8)

theorem execKeyid_of_short {s : State} (h : s.inLen < idMinLen s.cfg.idLayout) :
    execKeyid s = s.raise .decode 0x02#8 := if_pos h

/-- KEYID on an IN of at least ID_MIN_LEN bytes takes the byte at the key offset (R192). -/
theorem execKeyid_of_holds {s : State} {b : List Byte} (hb : InHolds s b)
    (hlen : idMinLen s.cfg.idLayout ≤ b.length) :
    execKeyid s = .next ((s.setKey (byteAt b s.cfg.idLayout.key)).finish .ok 0x02#8) := by
  have hin : ¬ s.inLen < idMinLen s.cfg.idLayout := by rw [hb.1]; exact not_lt.2 hlen
  rw [execKeyid, if_neg hin, withInput_of_holds hb]

/-- Settles O28: the key offset is a mandatory index, so an IN of ID_MIN_LEN bytes has the key. -/
theorem keyidResult : Obligations.KeyidResult := by
  intro s b hb
  split
  · next hshort =>
    exact (execKeyid_of_short (hb.1.trans_lt hshort)).trans (raise_of_fault rfl s _)
  · next hlong =>
    have hlen : idMinLen s.cfg.idLayout ≤ b.length := not_lt.1 hlong
    have hkey : s.cfg.idLayout.key < b.length :=
      (lt_idMinLen (by simp [mandatoryIndices])).trans_le hlen
    exact ⟨_, getElem?_eq_byteAt hkey,
      (execKeyid_of_holds hb hlen).trans (congrArg _ (finish_ok (s.setKey _) _))⟩

/-- MOV stores in IN the bytes OUT holds (R193). -/
theorem execMov_of_holds {s : State} {b : List Byte} (hb : OutHolds s b) :
    execMov s = .next ((s.storeIn b).finish .ok 0x03#8) := withOutput_of_holds hb _

/-- Settles O29. -/
theorem movResult : Obligations.MovResult := by
  intro s b hb
  exact ⟨_, execMov_of_holds hb, finish_ok (s.storeIn b) _, stored_writeBytes s.inBuf b⟩

end Sys2Proof.Machine
end

section
/-! How FRAME ends (46_framing_and_control R194, R197; 60_exceptions R214, R215): three faults, each tested
before the next and before IN is read, or the framed bytes in OUT. -/

namespace Sys2Proof.Machine

section

variable {c p a : Bool} {s : State}

theorem execFrame_of_key_twice (hpa : (p && a) = true) :
    execFrame c p a s = s.raise .illegal 0x11#8 := if_pos hpa

variable (hpa : (p && a) = false)
include hpa

theorem execFrame_of_missing_key (hneeds : (c || p || a) = true) (hnone : s.status.keyV = false) :
    execFrame c p a s = s.raise .nokey 0x11#8 := by
  have hmissing : ((c || p || a) && !s.status.keyV) = true := by rw [hneeds, hnone]; rfl
  rw [execFrame, if_neg (by simp [hpa]), if_pos hmissing]

theorem execFrame_of_too_long (hkey : (c || p || a) = true → s.status.keyV = true)
    (hlong : s.cfg.bufBytes < s.inLen + p.toNat + a.toNat) :
    execFrame c p a s = s.raise .overflow 0x11#8 := by
  have hnokey : ¬ ((c || p || a) && !s.status.keyV) = true := by
    rw [Bool.and_eq_true, Bool.not_eq_true']
    exact fun ⟨hneeds, hnone⟩ => Bool.false_ne_true (hnone.symm.trans (hkey hneeds))
  rw [execFrame, if_neg (by simp [hpa]), if_neg hnokey, if_pos hlong]

end

/-- Settles O40: the tests of R215 in their order, each fault raised with STATUS alone written. -/
theorem frameFaultsInOrder : Obligations.FrameFaultsInOrder := by
  intro s c p a
  refine ⟨fun hpa => ?_, fun hpa hneeds hnone => ?_, fun hpa hkey hlong => ?_⟩
  · exact (execFrame_of_key_twice hpa).trans (raise_of_fault rfl s _)
  · exact (execFrame_of_missing_key hpa hneeds hnone).trans (raise_of_fault rfl s _)
  · exact (execFrame_of_too_long hpa hkey hlong).trans (raise_of_fault rfl s _)

/-- Settles O39: the bytes FRAME produces fit, since the transform keeps the framed length; with C = 1 the
counter has run before they are stored. -/
theorem frameResult : Obligations.FrameResult := by
  intro s b c p a hb hpa hkey hfit
  have hexec : exec (.frame c p a) s = _ := execFrame_produces hb hpa hkey hfit
  have hlen : (frameOutput c p a s b).length ≤ s.cfg.bufBytes :=
    (length_frameOutput ..).trans_le hfit
  cases c with
  | false => exact ⟨_, hexec.trans (produce_of_fits _ hlen), produced_storeOut s _ _⟩
  | true => exact ⟨_, hexec.trans (produce_of_fits _ hlen), producedByTransform_storeOut s _ _ _⟩

end Sys2Proof.Machine
end

section
/-! Runs (70_reset_and_hazards R245): the step from related states repeats, and states that agree on what
is specified have the same observation. -/

namespace Sys2Proof.Machine

/-- Two outcomes that agree are related next states or one stop. -/
theorem SameOutcome.cases {R : State → State → Prop} {x y : Host.Outcome State Fault Refusal}
    (h : SameOutcome R x y) :
    (∃ s t, x = .next s ∧ y = .next t ∧ R s t) ∨ (∃ f, x = .fault f ∧ y = .fault f)
      ∨ ∃ r, x = .refused r ∧ y = .refused r := by
  cases x <;> cases y
  case next.next s t => exact .inl ⟨s, t, rfl, rfl, h⟩
  case fault.fault f g => exact .inr (.inl ⟨f, rfl, congrArg _ (Eq.symm h)⟩)
  case refused.refused f g => exact .inr (.inr ⟨f, rfl, congrArg _ (Eq.symm h)⟩)
  all_goals exact h.elim

theorem SameOutcome.mono {R R' : State → State → Prop} {x y : Host.Outcome State Fault Refusal}
    (h : SameOutcome R x y) (hR : ∀ s t, R s t → R' s t) : SameOutcome R' x y := by
  obtain ⟨s, t, rfl, rfl, hst⟩ | ⟨f, rfl, rfl⟩ | ⟨r, rfl, rfl⟩ := h.cases
  · exact hR s t hst
  · exact rfl
  · exact rfl

/-- A field that is observed only while its bit is set depends on its value only then. -/
theorem some_ite_congr {α : Type} {ok ok' : Bool} {x y : α} (hok : ok = ok')
    (hxy : ok = true → x = y) : (if ok then some x else none) = if ok' then some y else none := by
  subst hok
  cases ok with
  | false => rfl
  | true => rw [hxy rfl]

namespace SameVisible

variable {s t : State}

/-- Runs from related states agree: their first steps do, and so do the runs from there. -/
theorem run (h : SameVisible s t) (k : Nat) : SameOutcome SameVisible (run k s) (run k t) := by
  induction k generalizing s t with
  | zero => exact h
  | succ k ih =>
    obtain ⟨u, v, hs, ht, huv⟩ | ⟨f, hs, ht⟩ | ⟨r, hs, ht⟩ :=
      (unspecifiedStateNeverMatters s t h).cases
    · rw [run_of_step hs, run_of_step ht]
      exact ih huv
    · simp only [Machine.run, hs, ht]
      exact rfl
    · simp only [Machine.run, hs, ht]
      exact rfl

/-- Everything an observation is made of is specified. -/
theorem observe (h : SameVisible s t) : observe s = observe t :=
  (Observation.mk.injEq ..).mpr ⟨congrArg _ h.status, congrArg _ h.status, congrArg _ h.output,
    some_ite_congr h.idV h.identity, some_ite_congr h.stV h.alerts, some_ite_congr h.prV h.progress,
    some_ite_congr h.cntV fun hv => (h.statistics hv).2⟩

end SameVisible

/-- Settles O58: related states run to the same stop or to related states (`SameVisible.run`), and those
have one observation (`SameVisible.observe`). -/
theorem runsObserveOnlySpecifiedState : Obligations.RunsObserveOnlySpecifiedState :=
  fun k _ _ h => (h.run k).mono fun _ _ hend => ⟨hend, hend.observe⟩

end Sys2Proof.Machine
end

section
/-! Progress (70_reset_and_hazards R230 to R232, R240, R241, R246): which steps and host actions answer a next
state, and which one. -/

namespace Sys2Proof.Machine

/-- Settles O9: under a valid configuration a step looks at the queue, and an empty one is idle. -/
theorem idleHoldsState : Obligations.IdleHoldsState := by
  intro s hc hh
  unfold step nextStep
  rw [if_pos hc, hh]

/-- Settles O10: the configuration is checked before anything else. -/
theorem badConfigurationRefused : Obligations.BadConfigurationRefused :=
  fun _ hc => if_neg (Bool.eq_false_iff.1 hc)

/-- Settles O12: the values stand in `State.resetUnder`. -/
theorem resetStep : Obligations.ResetStep := fun _ =>
  ⟨_, rfl, rfl, rfl, rfl, rfl, rfl, statusWord_reset, rfl⟩

theorem hostLoad_of_fits {b : List Byte} {s : State} (hb : b.length ≤ s.cfg.bufBytes) :
    hostLoad b s = .next ((s.storeIn b).answer .nothing) := if_pos hb

/-- Every command word completes: an illegal one is a next state, too (20_memory R60). -/
theorem issueWord_completes {s : State} (h : EngineInv s) (w : CommandWord) :
    ∃ t, issueWord w s = .next t := by
  cases hd : decode w with
  | error e => exact ⟨_, issueWord_of_reject hd s⟩
  | ok i =>
    obtain ⟨t, ht⟩ := everyCommandCompletes i s h
    exact ⟨_, issueWord_of_next hd ht⟩

/-- Whether a register is meaningful does not depend on what the host has still to do. -/
@[simp] theorem meaningful_withHost (r : HostReg) (s : State) (a : List HostAction) :
    meaningful r (s.withHost a) = meaningful r s := rfl

theorem hostReadReg_completes {s : State} (h : EngineInv s) {r : HostReg}
    (hr : meaningful r s = true) : ∃ t, hostReadReg r s = .next t := by
  obtain ⟨v, -, hv⟩ := hostRead_of_meaningful h hr
  exact ⟨_, hostReadReg_of_ok hv⟩

/-- The host's next action completes, when it keeps its duty. -/
theorem hostStep_completes {s : State} (h : EngineInv s) {a : HostAction} {rest : List HostAction}
    (hh : s.host = a :: rest) (hduty : HostDuty s) : ∃ t, hostStep a (s.withHost rest) = .next t := by
  have h' := h.withHost rest
  simp only [HostDuty, hh] at hduty
  cases a with
  | load b => exact ⟨_, hostLoad_of_fits hduty⟩
  | command w => exact issueWord_completes h' w
  | fetch => exact withOutput_completes h' fun b _ => ⟨_, rfl⟩
  | readReg r => exact hostReadReg_completes h' ((meaningful_withHost r s rest).trans hduty)
  | writeStatus v => exact ⟨_, rfl⟩
  | reset => exact ⟨_, rfl⟩

/-- Settles O56: an idle step holds the state, any other completes as its action does, and a step keeps
the invariant. -/
theorem dutifulHostNeverStops : Obligations.DutifulHostNeverStops := by
  intro s h hduty
  have hnext : ∃ t, step s = .next t := by
    cases hh : s.host with
    | nil => exact ⟨s, idleHoldsState s h.config hh⟩
    | cons a rest =>
      rw [step_of_host h.config hh]
      exact hostStep_completes h hh hduty
  obtain ⟨t, ht⟩ := hnext
  exact ⟨t, ht, stepKeepsInvariant s t h ht⟩

/-- Settles O52: a LOAD that fits is one store to IN, any other is refused. -/
theorem loadStep : Obligations.LoadStep := by
  intro s b
  split
  next hb => exact ⟨_, hostLoad_of_fits hb, rfl, stored_writeBytes s.inBuf b⟩
  next hb => exact if_neg hb

/-- Settles O53: FETCH and a register read only answer. -/
theorem fetchStep : Obligations.FetchStep := by
  refine fun s => ⟨fun b hb => withOutput_of_holds hb _, fun r t h => ?_⟩
  obtain ⟨v, -, rfl⟩ := hostReadReg_next h
  rfl

end Sys2Proof.Machine
end

section
/-! Failures (60_exceptions R213, R214): a command that ends in an error writes STATUS only, and there its own
valid bit or SA. -/

namespace Sys2Proof.Machine

theorem execXform_of_missing_key {s : State} (hkey : s.status.keyV = false) :
    execXform true s = s.raise .nokey 0x10#8 := if_pos (by rw [hkey]; rfl)

/-- Settles O32: NOKEY is a fault code. -/
theorem xformWithoutKey : Obligations.XformWithoutKey := fun s hkey =>
  (execXform_of_missing_key hkey).trans (raise_of_fault rfl s _)

/-- The STATUS write of a command, field by field (10_state R27, R30, R31). -/
theorem finish_eq (s : State) (e : Err) (op : Byte) :
    s.finish e op = { s with status := { s.status with
      err := e, sticky := s.status.sticky || isFault e, lastOp := op } } := rfl

/-- Settles O24: every outcome of a command that is not OK is a STATUS write, of DECID, DECPR and STCHK
after their own bit was cleared. -/
theorem failureWritesNoResult : Obligations.FailureWritesNoResult := by
  intro i s t h herr
  apply exec_cases h
  case fail =>
    rintro e op - hid hpr hsa - - rfl
    simp [hid, hpr, hsa, finish_eq]
  case keyidF =>
    rintro rfl - rfl
    simp [finish_eq]
  case decidF =>
    rintro rfl - rfl
    simp [finish_eq]
  case decprF =>
    rintro rfl rfl
    simp [finish_eq]
  case stchkF =>
    rintro e rfl - rfl
    simp [finish_eq]
  all_goals
    intros
    subst t
    exact absurd rfl herr

end Sys2Proof.Machine
end
